-- ==== Sys2Proof/Word.lean ====
section
/-!
DEFINITION. The words of the Vocten 2840: bytes, 12-bit samples, 16- and 32-bit counts.
Counts that wrap (web line numbers, stamps, repeat numbers, counters: 0.7) are bit vectors;
settings with a plain numeric range are natural numbers.
-/

namespace Sys2Proof

/-- A byte of a frame, of a stored line or of the store. -/
abbrev Byte := BitVec 8

/-- A camera sample, 0 to 4095 (0.7). -/
abbrev Sample := BitVec 12

/-- A web line number, a stamp or a repeat number: 32 bits, wrapping (0.7). -/
abbrev Line := BitVec 32

/-- A 32-bit wrapping counter (0.7). -/
abbrev Counter := BitVec 32

/-- A window's strip sequence number: 16 bits, wrapping (0.7). -/
abbrev SeqNum := BitVec 16

end Sys2Proof
end

