-- ==== Sys2Proof/Syntax.lean ====
section
/-!
DEFINITION. The commands of the router: one constructor of `Instr` for each row of spec/opcode_table.json,
with the names of ports, lanes and outputs they act on.
-/

namespace Sys2Proof

/-- A steering link port, C0 to C3 (0.1). -/
inductive Port where
  | c0 | c1 | c2 | c3
  deriving DecidableEq, Repr

/-- A camera lane, L0 to L7 (0.1). -/
inductive Lane where
  | l0 | l1 | l2 | l3 | l4 | l5 | l6 | l7
  deriving DecidableEq, Repr

/-- A marker output, MK0 or MK1 (0.1). -/
inductive Output where
  | mk0 | mk1
  deriving DecidableEq, Repr

/-- The levels of the two encoder inputs (1.2). -/
structure EncInputs where
  a : Bool
  b : Bool
  deriving DecidableEq, Repr

/-- A direction of a mark sensor transition, and the mark edge setting (R25). -/
inductive MarkDirection where
  | rising | falling
  deriving DecidableEq, Repr

/-- A line frame as a lane link reports it (3.5): its samples, or a frame whose check failed (R58). -/
inductive LineFrame where
  | good (samples : List Sample)
  | damaged
  deriving DecidableEq, Repr

/-- The commands, in the order of spec/opcode_table.json. A row that is a request carries the port that
takes it; the request's fields stand in the frame at the head of that port's queue (R165, log 4). -/
inductive Instr where
  | powerOn (inputs : EncInputs)
  | encoderCount (inputs : EncInputs)
  | gateReopen
  | stopTimerExpiry
  | speedGateEnd
  | setMotion (p : Port)
  | chainExpiry
  | markEdge (edge : MarkDirection)
  | repeatRestart (p : Port)
  | setRepeat (p : Port)
  | snapshot (p : Port)
  | log (p : Port)
  | setLane (p : Port)
  | lineArrival (k : Lane) (frame : LineFrame)
  | laneLinkLoss (k : Lane)
  | laneLinkReturn (k : Lane)
  | laneInfo (p : Port)
  | pageClear (p : Port)
  | pageSeek (p : Port)
  | pageFill (p : Port)
  | pageCommit (p : Port)
  | tableRead (p : Port)
  | levelStart (p : Port)
  | spanEnd
  | levelAbort (p : Port)
  | levelResults (p : Port)
  | setStore (p : Port)
  | windowOpen (p : Port)
  | windowClose (p : Port)
  | windowReturn (p : Port)
  | windowInfo (p : Port)
  | steeringLinkUp (p : Port)
  | grant (p : Port)
  | frameCompletion (p : Port)
  | stripCompletion (p : Port)
  | stallTimerExpiry (p : Port)
  | steeringLinkLoss (p : Port)
  | requestArrival (p : Port) (bytes : List Byte)
  | badKind (p : Port)
  | claim (p : Port)
  | release (p : Port)
  | notices (p : Port)
  | status (p : Port)
  | restart (p : Port)
  | markOut (p : Port)
  | setMarkerOut (p : Port)
  | pulseEnd (o : Output)
  deriving DecidableEq, Repr

end Sys2Proof
end

