-- ==== Sys2Proof/Decode.lean ====
section
/-!
DEFINITION. The words of spec/opcode_table.json. No row of the table gives bits ("fields" is empty in every row,
and the reader counts no row with fixed bits), so no word spells a command. The bytes that do cross a steering link,
request frames, are read in Machine/Operands.lean.
-/

namespace Sys2Proof

/-- The command that a word spells by the table's bits: none, since no row of the table gives bits. -/
def decodeTableWord (_nbits _w : Nat) : Option Instr := none

end Sys2Proof
end

