-- ==== Sys2Proof/Config.lean ====
section
/-!
DEFINITION. The fixed sizes and power-on values of the Vocten 2840 (0.8 and the reset tables of the chapters),
and the values the model chooses where the manual gives none.
-/

namespace Sys2Proof.Config

/-! ### Sizes -/

/-- Band slots 0 to 4095 (R92). -/
def slotCount : Nat := 4096
/-- Bytes of a band slot (R96). -/
def slotBytes : Nat := 524288
/-- Bytes of one slot line (R96). -/
def slotLineBytes : Nat := 8192
/-- Bytes of the DRAM store, 2 GiB (0.1). -/
def storeBytes : Nat := 2147483648
/-- Lines of a block (0.6). -/
def blockLines : Nat := 64
/-- Window ids 0 to 63 (R113). -/
def windowCount : Nat := 64
/-- Capacity of a delivery queue (R134). -/
def queueCapacity : Nat := 256
/-- The greatest credit (R133). -/
def creditMax : Nat := 64
/-- Capacity of a request queue (R164). -/
def requestCapacity : Nat := 8
/-- A port takes a request only with fewer waiting responses than this (R164). -/
def takeLimit : Nat := 8
/-- The greatest number of waiting responses (R164). -/
def responseCapacity : Nat := 16
/-- Capacity of a trigger FIFO (R54). -/
def fifoCapacity : Nat := 4
/-- Capacity of the repeat log (R22). -/
def logCapacity : Nat := 16
/-- Capacity of the marker queue (R152). -/
def markerCapacity : Nat := 32
/-- The greatest backtrack owed count (R5, R6). -/
def owedMax : Nat := 4095
/-- Pressure is left when the free count stands more than this above the reserve (R108). -/
def pressureMargin : Nat := 32
/-- Mismatches above which an IN_STEP checker returns to HUNTING (R64). -/
def mismatchLimit : Nat := 64
/-- Clean lines that bring the checker IN_STEP (R63). -/
def cleanRunGoal : Nat := 3
/-- Entries of a correction page and of the staging page (R69, R73). -/
def pageEntries : Nat := 256
/-- Entries of a correction table (R69). -/
def tableEntries : Nat := 8192

/-! ### Units of the clock (10 ns, 0.7) -/

/-- Clock units in a millisecond. -/
def unitsPerMs : Nat := 100000
/-- Clock units in a microsecond. -/
def unitsPerUs : Nat := 100
/-- The speed gate of 100 ms (R14). -/
def speedGateUnits : Nat := 100 * unitsPerMs

/-! ### Power-on values -/

/-- Default minimum trigger spacing (R18). -/
def spacing : Nat := 1000
/-- Default stop time in ms (R18). -/
def stopTime : Nat := 200
/-- Default repeat length in phase units (R44). -/
def repeatLength : Nat := 2560000
/-- Default lane width (R68). -/
def width : Nat := 4096
/-- Default column base of lane number k is k times this (R68). -/
def baseStep : Nat := 4096
/-- Default flat value (R68). -/
def flat : Sample := 2048
/-- Default store reserve (R112). -/
def reserve : Nat := 128
/-- Default stall timeout in ms (R151). -/
def stallTimeout : Nat := 100

/-! ### Values the model chooses -/

/-- What a byte of the store reads as before anything has written it. DESIGN CHOICE, unsafe (log 8):
the manual gives the DRAM no power-on contents, and R97 makes unwritten bytes of a slot irrelevant. -/
def dramPowerOn : Byte := 0
/-- The state of every lane link in `State.reset`. DESIGN CHOICE, unsafe (log 6): R68 does not reset it. -/
def laneLinkAtReset : Bool := true
/-- The state of every steering link in `State.reset`. DESIGN CHOICE, unsafe (log 7): R151 says "as the link stands". -/
def portLinkAtReset : Bool := false

/-! ### Free values -/

/-- The four bytes that carry a speed estimate of 2^32 lines per second or more: the manual gives none. A free value, safe (log 18). -/
opaque freeSpeedField : Nat → BitVec 32

end Sys2Proof.Config
end

