-- ==== Sys2Proof/Machine/State.lean ====
section
/-!
DEFINITION. The state of the Vocten 2840, block by block (0.4), as plain data, and its values right after reset (0.8).
-/

namespace Sys2Proof.Machine

/-! ### Like things by port, lane and output -/

/-- One value for each port. -/
structure PerPort (α : Type) where
  c0 : α
  c1 : α
  c2 : α
  c3 : α
  deriving DecidableEq, Repr

/-- One value for each lane. -/
structure PerLane (α : Type) where
  l0 : α
  l1 : α
  l2 : α
  l3 : α
  l4 : α
  l5 : α
  l6 : α
  l7 : α
  deriving DecidableEq, Repr

/-- One value for each marker output. -/
structure PerOutput (α : Type) where
  mk0 : α
  mk1 : α
  deriving DecidableEq, Repr

/-! ### Motion Unit (chapter 1) -/

/-- MOVING or STOPPED (R12, R13). -/
inductive MotionState where
  | stopped | moving
  deriving DecidableEq, Repr

/-- The motion settings record of SET_MOTION (R15, R16). -/
structure MotionSettings where
  /-- N of the divider ratio. -/
  n : Nat
  /-- D of the divider ratio. -/
  d : Nat
  /-- Direction invert. -/
  invert : Bool
  /-- Minimum trigger spacing, in units of 10 ns. -/
  spacing : Nat
  /-- Stop time, in ms. -/
  stopTime : Nat
  deriving DecidableEq, Repr

/-- The Motion Unit's state (1.1). -/
structure MotionUnit where
  settings : MotionSettings
  /-- The encoder reference state (R1, R2). -/
  reference : EncInputs
  /-- The divider accumulator A (R3, R5). -/
  acc : Nat
  /-- The backtrack owed count B (R4, R5). -/
  owed : Nat
  /-- The web line number (R7). -/
  wln : Line
  /-- The repeat-start flag (R9). -/
  repeatStart : Bool
  /-- The trigger gate: none is open, a time is closed until then (R10, R11). -/
  gate : Option Nat
  motion : MotionState
  /-- The stop timer's expiry time while it runs (R12). -/
  stopTimer : Option Nat
  /-- The speed gate count (R14). -/
  gateCount : Counter
  /-- The time at which the running speed gate ends (R14). -/
  speedGateEnd : Nat
  /-- The speed estimate in lines per second (R14). -/
  speed : Nat
  skipped : Counter
  encoderErrors : Counter
  overruns : Counter
  deriving DecidableEq, Repr

/-! ### Repeat Unit (chapter 2) -/

/-- The lock states (2.5). -/
inductive LockState where
  | off | hunt | locked | coast
  deriving DecidableEq, Repr

/-- The kinds of a pending restart (R32). -/
inductive RestartKind where
  | requested | acquisition
  deriving DecidableEq, Repr

/-- The repeat settings record (2.7). -/
structure RepeatSettings where
  /-- Repeat length Lr, in phase units. -/
  length : Nat
  tracking : Bool
  edge : MarkDirection
  /-- Mark offset M. -/
  m : Nat
  /-- Capture half-window Wc. -/
  wc : Nat
  /-- Correction limit Cmax. -/
  cmax : Nat
  /-- Acquisition count Qacq. -/
  qacq : Nat
  /-- Miss limit Kmiss. -/
  kmiss : Nat
  deriving DecidableEq, Repr

/-- An entry of the repeat log (2.3). -/
structure LogEntry where
  rn : Line
  start : Line
  firstIrl : Nat
  length : Option Nat
  stretch : Int
  markIrl : Option Nat
  partialStart : Bool
  irregularEnd : Bool
  lockAtStart : LockState
  deriving DecidableEq, Repr

/-- A mark chain that is not empty: its length and the last candidate WLN (R26). -/
structure MarkChain where
  length : Nat
  last : Line
  deriving DecidableEq, Repr

/-- The Repeat Unit's state (2.1). The log is `older` (closed entries, oldest first) and then `newest`;
the current RN is the newest entry's. -/
structure RepeatUnit where
  settings : RepeatSettings
  /-- The repeat phase, in phase units. -/
  phase : Nat
  /-- The stretch S (R24). -/
  stretch : Int
  /-- The mark-accepted flag of the current repeat. -/
  accepted : Bool
  lock : LockState
  /-- The mark chain; none is empty. -/
  chain : Option MarkChain
  /-- The miss count. -/
  misses : Nat
  /-- The pending restart (R32). -/
  restart : Option RestartKind
  /-- The pending repeat settings (R37). -/
  pendingSettings : Option RepeatSettings
  older : List LogEntry
  newest : LogEntry
  /-- The stray mark counter (R28). -/
  strays : Counter
  deriving DecidableEq, Repr

/-! ### Lane Front Ends (chapter 3) -/

/-- The modes in which a lane takes triggers; also the recorded mode of a FIFO entry and the remembered mode. -/
inductive ActiveMode where
  | run | check
  deriving DecidableEq, Repr

/-- The mode setting (3.3). -/
inductive LaneMode where
  | off
  | active (m : ActiveMode)
  deriving DecidableEq, Repr

/-- A lane's state; FAULT holds the remembered mode (R45). -/
inductive LaneState where
  | off
  | active (m : ActiveMode)
  | fault (remembered : ActiveMode)
  deriving DecidableEq, Repr

/-- A lane's source (3.3). -/
inductive Source where
  | camera | ramp | flat
  deriving DecidableEq, Repr

/-- The immediate settings of a lane (3.3). -/
structure ImmediateSettings where
  fill : Byte
  flat : Sample
  correction : Bool
  deriving DecidableEq, Repr

/-- A trigger FIFO entry (R54). -/
structure FifoEntry where
  wln : Line
  offset : Nat
  mode : ActiveMode
  deriving DecidableEq, Repr

/-- The pattern checker (R63, R64). -/
structure Checker where
  inStep : Bool
  cleanRun : Nat
  expected : Sample
  deriving DecidableEq, Repr

/-- The ten lane counters (R67). -/
structure LaneCounters where
  noResponse : Counter
  unsolicited : Counter
  long : Counter
  short : Counter
  realign : Counter
  stale : Counter
  frameError : Counter
  checkError : Counter
  outOfStep : Counter
  linkLoss : Counter
  deriving DecidableEq, Repr

/-- One Lane Front End's state (3.1). -/
structure LaneFrontEnd where
  state : LaneState
  linkUp : Bool
  source : Source
  width : Nat
  base : Nat
  offset : Nat
  immediate : ImmediateSettings
  /-- The pending mode and source item. -/
  pendingMode : Option (LaneMode × Source)
  /-- The pending offset item. -/
  pendingOffset : Option Nat
  /-- The pending width and column base item. -/
  pendingWidth : Option (Nat × Nat)
  /-- The pending immediate settings item. -/
  pendingImmediate : Option ImmediateSettings
  /-- The trigger FIFO, oldest first. -/
  fifo : List FifoEntry
  /-- The drain count (R50). -/
  drain : Nat
  lastStamp : Option Line
  bandRn : Option Line
  checker : Checker
  counters : LaneCounters
  deriving DecidableEq, Repr

/-! ### Correction Block (chapter 4) -/

/-- A correction table entry: dark level and gain (4.2). -/
structure Correction where
  dark : Nat
  gain : Nat
  deriving DecidableEq, Repr

/-- The unity entry (4.2), which an unlisted entry of a table reads as. -/
def Correction.unity : Correction := { dark := 0, gain := 4096 }

/-- A pending page commit (R77). -/
structure Commit where
  lane : Lane
  page : Nat
  port : Port
  deriving DecidableEq, Repr

/-- The Correction Block's state (4.1). A table lists its entries that are not unity. -/
structure CorrectionBlock where
  tables : PerLane (List (Nat × Correction))
  staging : List (Nat × Correction)
  pointer : Nat
  endWritten : Bool
  commit : Option Commit
  deriving DecidableEq, Repr

/-! ### Leveling Engine (chapter 5) -/

/-- The request record of a search, without the lane set, which the lane records carry (5.2). -/
structure LevelRequest where
  reference : Lane
  threshold : Nat
  span : Nat
  apply : Bool
  deriving DecidableEq, Repr

/-- Search statuses of a lane (R83). -/
inductive SearchStatus where
  | waiting | edge | notRunning
  deriving DecidableEq, Repr

/-- An edge that was found: its stamp and the offset it was taken under (R84). -/
structure Edge where
  stamp : Line
  offset : Nat
  deriving DecidableEq, Repr

/-- A lane's search record (5.1), with its probe sample. -/
structure SearchRecord where
  probe : Nat
  status : SearchStatus
  previous : Option Byte
  edge : Option Edge
  deriving DecidableEq, Repr

/-- Result statuses of a lane (R87). -/
inductive ResultStatus where
  | notRunning | found | notFound | outOfRange | noReference | aborted
  deriving DecidableEq, Repr

/-- A lane's result (R87): edge stamp and old offset are present together. -/
structure LaneResult where
  probe : Nat
  status : ResultStatus
  edge : Option Edge
  newOffset : Option Nat
  deriving DecidableEq, Repr

/-- End causes of a search (R87). -/
inductive EndCause where
  | edges | span | abort
  deriving DecidableEq, Repr

/-- A search in progress: a lane outside the set has no record (R83). -/
structure Search where
  request : LevelRequest
  port : Port
  start : Line
  records : PerLane (Option SearchRecord)
  deriving DecidableEq, Repr

/-- A finished search with its results (R87). -/
structure Finished where
  request : LevelRequest
  port : Port
  start : Line
  cause : EndCause
  endWln : Line
  results : PerLane (Option LaneResult)
  deriving DecidableEq, Repr

/-- The Leveling Engine's state (5.1, R90). -/
inductive LevelingEngine where
  | idle
  | searching (s : Search)
  | done (f : Finished)
  deriving DecidableEq, Repr

/-! ### Band Store Controller (chapter 6) -/

/-- What a seal writes into a band record (R105), and the holder count (R106). -/
structure SealRecord where
  fill : Byte
  stopSealed : Bool
  irregular : Bool
  lock : LockState
  sequence : Counter
  holders : Nat
  deriving DecidableEq, Repr

/-- The record of a FILLING or HELD slot (R93): FILLING until `sealing` is present. -/
structure Band where
  lane : Lane
  rn : Line
  block : Nat
  startIrl : Nat
  lastIrl : Nat
  /-- The presence set: IRL and captured sample count, in IRL order. -/
  presence : List (Nat × Nat)
  startStamp : Line
  width : Nat
  base : Nat
  partialStart : Bool
  test : Bool
  overrun : Bool
  sealing : Option SealRecord
  deriving DecidableEq, Repr

/-- The Band Store Controller's state (6.1). The band table lists the slots that are not FREE. -/
structure BandStore where
  bands : List (Nat × Band)
  /-- The free list, head first (R94). -/
  free : List Nat
  filling : PerLane (Option Nat)
  /-- The overrun-pending flags (R102). -/
  overrunPending : PerLane Bool
  sealSequence : Counter
  reserve : Nat
  pressure : Bool
  overrunLines : Counter
  deriving DecidableEq, Repr

/-! ### Window Matcher (chapter 7) -/

/-- The delivery classes (0.6). -/
inductive DeliveryClass where
  | essential | sheddable
  deriving DecidableEq, Repr

/-- The record of an OPEN or CLOSING window (R114): CLOSING when `closing` holds its strips in flight. -/
structure Window where
  owner : Port
  origin : Port
  adopted : Bool
  /-- The lane set; absent is every lane. -/
  lanes : Option (PerLane Bool)
  c0 : Nat
  c1 : Nat
  l0 : Nat
  l1 : Option Nat
  stride : Nat
  phase : Nat
  cls : DeliveryClass
  /-- GAP pending. -/
  gap : Bool
  sequence : SeqNum
  sent : Counter
  dropped : Counter
  closing : Option Nat
  deriving DecidableEq, Repr

/-! ### Consumer Ports (chapters 8 and 10) -/

/-- The port states (R131). -/
inductive PortState where
  | down | live | stalled
  deriving DecidableEq, Repr

/-- The notice kinds (R170), in the order of their codes (11.3). -/
inductive NoticeKind where
  | repeatOpened | lock | motion | skip | pressure | lane | encoder | stall | adopt | marker | commit | level | claim
  deriving DecidableEq, Repr

/-- A set of notice kinds: kind code k is bit k (11.3). -/
abbrev NoticeSet := BitVec 13

/-- A delivery entry (R126). -/
structure Entry where
  slot : Nat
  window : Nat
  firstIrl : Nat
  lines : Nat
  firstColumn : Nat
  columns : Nat
  cls : DeliveryClass
  deriving DecidableEq, Repr

/-- The header of a strip (R138): what its window, its band and its clip give at the begin. -/
structure StripHeader where
  window : Nat
  origin : Port
  cls : DeliveryClass
  sequence : SeqNum
  gap : Bool
  slot : Nat
  lane : Lane
  rn : Line
  block : Nat
  startIrl : Nat
  lastIrl : Nat
  startStamp : Line
  base : Nat
  width : Nat
  partialStart : Bool
  test : Bool
  overrun : Bool
  stopSealed : Bool
  irregular : Bool
  lock : LockState
  sealSequence : Counter
  firstIrl : Nat
  lines : Nat
  firstColumn : Nat
  columns : Nat
  /-- For each clipped line in IRL order the captured sample count, 0 for a missing line. -/
  presence : List Nat
  deriving DecidableEq, Repr

/-- A request frame that was accepted: kind byte, tag and field bytes (10.1, 11.3). -/
structure RequestFrame where
  kind : Byte
  tag : Byte
  fields : List Byte
  deriving DecidableEq, Repr

/-- The response codes (R166). -/
inductive ResponseCode where
  | done | busy | notHolder | held | range | tableFull | unknown | late | full | unknownRepeat | state | queueFull | badKind
  deriving DecidableEq, Repr

/-- The SNAPSHOT record (R41). -/
structure SnapshotRecord where
  wln : Line
  rn : Line
  irl : Nat
  phaseFraction : Nat
  stretch : Int
  lock : LockState
  motion : MotionState
  speed : Nat
  owed : Nat
  restart : Option RestartKind
  pendingSettings : Bool
  deriving DecidableEq, Repr

/-- The STATUS record (R173). -/
structure StatusRecord where
  pendingSet : NoticeSet
  portState : PortState
  credit : Nat
  essentialDepth : Nat
  sheddableDepth : Nat
  requestDepth : Nat
  holder : Option Port
  standby : Option Port
  wln : Line
  rn : Line
  irl : Nat
  lock : LockState
  motion : MotionState
  speed : Nat
  freeCount : Nat
  pressure : Bool
  skipped : Counter
  encoderErrors : Counter
  overruns : Counter
  overrunLines : Counter
  strays : Counter
  requestErrors : Counter
  stripsSent : Counter
  entriesDropped : Counter
  markersFired : Counter
  markersCancelled : Counter
  deriving DecidableEq, Repr

/-- The data a response carries (11.4). A lane, window or engine record is carried as that block's state
at the instant of the answer; Machine/Records.lean gives the bytes sent for it. -/
inductive ResponseData where
  | nothing
  | holder (p : Port)
  | windowId (id : Nat)
  | credit (n : Nat)
  | mask (kinds : NoticeSet)
  | correction (c : Correction)
  | snapshot (r : SnapshotRecord)
  | log (entries : List LogEntry)
  | laneInfo (k : Lane) (lane : LaneFrontEnd)
  | windowInfo (id : Nat) (w : Window)
  | levelResults (e : LevelingEngine)
  | status (r : StatusRecord)
  deriving DecidableEq, Repr

/-- A response frame (10.1, 11.4). -/
structure Response where
  kind : Byte
  tag : Byte
  code : ResponseCode
  merged : Bool
  overflow : Bool
  data : ResponseData
  deriving DecidableEq, Repr

/-- A frame on the outbound side of a steering link (8.5). -/
inductive OutFrame where
  | response (r : Response)
  | notice (kinds : NoticeSet)
  | strip (e : Entry) (h : StripHeader)
  deriving DecidableEq, Repr

/-- One Consumer Port's state (8.1, 10.1). The strip in flight is the strip frame of `outbound`. -/
structure ConsumerPort where
  state : PortState
  linkUp : Bool
  credit : Nat
  essential : List Entry
  sheddable : List Entry
  /-- The frame being sent; none is idle (R135). -/
  outbound : Option OutFrame
  /-- The stall timer's expiry time while it runs (R141). -/
  stall : Option Nat
  sent : Counter
  dropped : Counter
  requests : List RequestFrame
  /-- The waiting responses, oldest first. -/
  responses : List Response
  mask : NoticeSet
  pendingSet : NoticeSet
  /-- The waiting notice frame. -/
  notice : Option NoticeSet
  /-- The request error counter. -/
  errors : Counter
  deriving DecidableEq, Repr

/-- The claim and standby record (10.1), with the shared stall timeout (8.1) and the RESTART in progress (R175). -/
structure SharedRecord where
  holder : Option Port
  standby : Option Port
  /-- Stall timeout in ms. -/
  stallTimeout : Nat
  restart : Option Port
  deriving DecidableEq, Repr

/-! ### Marker Unit (chapter 9) -/

/-- The output modes (R158, R159). -/
inductive MarkerMode where
  | pulse | toggle
  deriving DecidableEq, Repr

/-- The output polarities (9.5). -/
inductive Polarity where
  | activeHigh | activeLow
  deriving DecidableEq, Repr

/-- A marker queue entry (R152). -/
structure MarkerEntry where
  output : Output
  target : Line
  /-- Pulse width in microseconds. -/
  width : Nat
  requesters : PerPort Bool
  deriving DecidableEq, Repr

/-- One marker output (9.1). -/
structure MarkerOutput where
  distance : Nat
  mode : MarkerMode
  polarity : Polarity
  pendingMode : Option (MarkerMode × Polarity)
  active : Bool
  pulseEnd : Option Nat
  deriving DecidableEq, Repr

/-- The Marker Unit's state (9.1). -/
structure MarkerUnit where
  /-- The marker queue, head first. -/
  queue : List MarkerEntry
  outputs : PerOutput MarkerOutput
  fired : PerPort Counter
  cancelled : PerPort Counter
  deriving DecidableEq, Repr

/-! ### The router -/

/-- The state of the router. `pending` is the queue of commands, first in, first out; `now` is the model's
own clock in units of 10 ns (log 3). -/
structure State where
  pending : List Instr
  now : Nat
  mu : MotionUnit
  ru : RepeatUnit
  lanes : PerLane LaneFrontEnd
  cb : CorrectionBlock
  le : LevelingEngine
  bsc : BandStore
  /-- The DRAM store: cells that do not read `Config.dramPowerOn`, addresses rising (R96). -/
  dram : List Host.Cell
  /-- The window table: OPEN and CLOSING records by id, ids rising. -/
  windows : List (Nat × Window)
  ports : PerPort ConsumerPort
  shared : SharedRecord
  mku : MarkerUnit
  deriving DecidableEq, Repr

/-- The reasons a step of the router could fault: none. The manual makes no event of the router a fault:
a refused request is answered (R166) and every loss is counted, flagged or raised as a notice. -/
inductive Fault where
  deriving DecidableEq, Repr

/-- The reasons a command could be refused by the model. -/
inductive Refusal where
  /-- Raised by an arm of exec whose command has no meaning yet. Safe: nothing is said of the command. -/
  | notModelled (mnemonic : String)
  deriving DecidableEq, Repr

/-! ### Values at power-on -/

/-- A lane's number. -/
def laneNumber : Lane → Nat
  | .l0 => 0 | .l1 => 1 | .l2 => 2 | .l3 => 3 | .l4 => 4 | .l5 => 5 | .l6 => 6 | .l7 => 7

/-- One value for every port. -/
def PerPort.all {α : Type} (x : α) : PerPort α := ⟨x, x, x, x⟩
/-- One value for every lane. -/
def PerLane.all {α : Type} (x : α) : PerLane α := ⟨x, x, x, x, x, x, x, x⟩
/-- One value for every output. -/
def PerOutput.all {α : Type} (x : α) : PerOutput α := ⟨x, x⟩

/-- The Motion Unit at a reset (R18): the reference state is the levels present, the speed gate begins at `now`. -/
def MotionUnit.initial (inputs : EncInputs) (now : Nat) : MotionUnit where
  settings := { n := 1, d := 1, invert := false, spacing := Config.spacing, stopTime := Config.stopTime }
  reference := inputs
  acc := 0
  owed := 0
  wln := 0
  repeatStart := true
  gate := none
  motion := .stopped
  stopTimer := none
  gateCount := 0
  speedGateEnd := now + Config.speedGateUnits
  speed := 0
  skipped := 0
  encoderErrors := 0
  overruns := 0

/-- The Repeat Unit at a reset (R44). -/
def RepeatUnit.initial : RepeatUnit where
  settings := { length := Config.repeatLength, tracking := false, edge := .rising,
                m := 64, wc := 32, cmax := 8, qacq := 2, kmiss := 3 }
  phase := 0
  stretch := 0
  accepted := false
  lock := .off
  chain := none
  misses := 0
  restart := none
  pendingSettings := none
  older := []
  newest := { rn := 0, start := 0, firstIrl := 0, length := none, stretch := 0, markIrl := none,
              partialStart := false, irregularEnd := false, lockAtStart := .off }
  strays := 0

/-- A lane at a reset (R68); its link state is not reset. -/
def LaneFrontEnd.initial (k : Lane) (linkUp : Bool) : LaneFrontEnd where
  state := .off
  linkUp := linkUp
  source := .camera
  width := Config.width
  base := laneNumber k * Config.baseStep
  offset := 0
  immediate := { fill := 0, flat := Config.flat, correction := true }
  pendingMode := none
  pendingOffset := none
  pendingWidth := none
  pendingImmediate := none
  fifo := []
  drain := 0
  lastStamp := none
  bandRn := none
  checker := { inStep := false, cleanRun := 0, expected := 0 }
  counters := { noResponse := 0, unsolicited := 0, long := 0, short := 0, realign := 0, stale := 0,
                frameError := 0, checkError := 0, outOfStep := 0, linkLoss := 0 }

/-- The Correction Block at a reset (R81). -/
def CorrectionBlock.initial : CorrectionBlock where
  tables := PerLane.all []
  staging := []
  pointer := 0
  endWritten := false
  commit := none

/-- The Band Store Controller at a reset (R112). -/
def BandStore.initial : BandStore where
  bands := []
  free := List.range Config.slotCount
  filling := PerLane.all none
  overrunPending := PerLane.all false
  sealSequence := 0
  reserve := Config.reserve
  pressure := false
  overrunLines := 0

/-- A port at a reset (R151, R176) in a given port state, its link as it stands. -/
def ConsumerPort.initial (state : PortState) (linkUp : Bool) : ConsumerPort where
  state := state
  linkUp := linkUp
  credit := 0
  essential := []
  sheddable := []
  outbound := none
  stall := none
  sent := 0
  dropped := 0
  requests := []
  responses := []
  mask := 0
  pendingSet := 0
  notice := none
  errors := 0

/-- The claim and standby record at a reset (R151, R176). -/
def SharedRecord.initial : SharedRecord where
  holder := none
  standby := none
  stallTimeout := Config.stallTimeout
  restart := none

/-- A marker output at a reset (R162). -/
def MarkerOutput.initial : MarkerOutput where
  distance := 0
  mode := .pulse
  polarity := .activeHigh
  pendingMode := none
  active := false
  pulseEnd := none

/-- The Marker Unit at power-on (R162). -/
def MarkerUnit.initial : MarkerUnit where
  queue := []
  outputs := PerOutput.all MarkerOutput.initial
  fired := PerPort.all 0
  cancelled := PerPort.all 0

/-- The router right after power-on (0.8): every port DOWN with its link down (log 7), every lane link up (log 6),
the encoder inputs at (0, 0) (log 5), the store reading `Config.dramPowerOn` (log 8), no command waiting. -/
def State.reset : State where
  pending := []
  now := 0
  mu := MotionUnit.initial { a := false, b := false } 0
  ru := RepeatUnit.initial
  lanes := { l0 := LaneFrontEnd.initial .l0 Config.laneLinkAtReset, l1 := LaneFrontEnd.initial .l1 Config.laneLinkAtReset,
             l2 := LaneFrontEnd.initial .l2 Config.laneLinkAtReset, l3 := LaneFrontEnd.initial .l3 Config.laneLinkAtReset,
             l4 := LaneFrontEnd.initial .l4 Config.laneLinkAtReset, l5 := LaneFrontEnd.initial .l5 Config.laneLinkAtReset,
             l6 := LaneFrontEnd.initial .l6 Config.laneLinkAtReset, l7 := LaneFrontEnd.initial .l7 Config.laneLinkAtReset }
  cb := CorrectionBlock.initial
  le := .idle
  bsc := BandStore.initial
  dram := []
  windows := []
  ports := PerPort.all (ConsumerPort.initial .down Config.portLinkAtReset)
  shared := SharedRecord.initial
  mku := MarkerUnit.initial

end Sys2Proof.Machine
end

