-- ==== Sys2Proof/Machine/Ops.lean ====
section
/-!
DEFINITION. The named operations over the state: access by port, lane and output, the updates of State's fields,
sparse tables in canonical form, the DRAM store, modular comparison of lines, and the clock.
-/

namespace Sys2Proof.Machine

/-! ### Lines (0.7) -/

/-- The difference of two web line numbers, stamps or repeat numbers, modulo 2^32 and read as a signed number (0.7). -/
def lineDiff (a b : Line) : Int := (a - b).toInt

/-- "At or before" of 0.7. -/
def atOrBefore (a b : Line) : Bool := lineDiff a b ≤ 0

/-! ### Access by port, lane and output -/

/-- The ports in ascending number. -/
def allPorts : List Port := [.c0, .c1, .c2, .c3]

/-- The lanes in ascending number. -/
def allLanes : List Lane := [.l0, .l1, .l2, .l3, .l4, .l5, .l6, .l7]

/-- The number of a port. -/
def portNumber : Port → Nat
  | .c0 => 0 | .c1 => 1 | .c2 => 2 | .c3 => 3

/-- The port of a number, if it names one. -/
def portOfNumber : Nat → Option Port
  | 0 => some .c0 | 1 => some .c1 | 2 => some .c2 | 3 => some .c3 | _ => none

/-- The lane of a number, if it names one. -/
def laneOfNumber : Nat → Option Lane
  | 0 => some .l0 | 1 => some .l1 | 2 => some .l2 | 3 => some .l3
  | 4 => some .l4 | 5 => some .l5 | 6 => some .l6 | 7 => some .l7 | _ => none

def PerPort.get {α : Type} (t : PerPort α) : Port → α
  | .c0 => t.c0 | .c1 => t.c1 | .c2 => t.c2 | .c3 => t.c3

def PerPort.set {α : Type} (t : PerPort α) (p : Port) (x : α) : PerPort α :=
  match p with
  | .c0 => { t with c0 := x } | .c1 => { t with c1 := x } | .c2 => { t with c2 := x } | .c3 => { t with c3 := x }

/-- Each port's value changed by a function of the port and the value. -/
def PerPort.map {α β : Type} (f : Port → α → β) (t : PerPort α) : PerPort β :=
  ⟨f .c0 t.c0, f .c1 t.c1, f .c2 t.c2, f .c3 t.c3⟩

def PerLane.get {α : Type} (t : PerLane α) : Lane → α
  | .l0 => t.l0 | .l1 => t.l1 | .l2 => t.l2 | .l3 => t.l3
  | .l4 => t.l4 | .l5 => t.l5 | .l6 => t.l6 | .l7 => t.l7

def PerLane.set {α : Type} (t : PerLane α) (k : Lane) (x : α) : PerLane α :=
  match k with
  | .l0 => { t with l0 := x } | .l1 => { t with l1 := x } | .l2 => { t with l2 := x } | .l3 => { t with l3 := x }
  | .l4 => { t with l4 := x } | .l5 => { t with l5 := x } | .l6 => { t with l6 := x } | .l7 => { t with l7 := x }

/-- Each lane's value changed by a function of the lane and the value. -/
def PerLane.map {α β : Type} (f : Lane → α → β) (t : PerLane α) : PerLane β :=
  ⟨f .l0 t.l0, f .l1 t.l1, f .l2 t.l2, f .l3 t.l3, f .l4 t.l4, f .l5 t.l5, f .l6 t.l6, f .l7 t.l7⟩

/-- The values of a per-lane table in ascending lane number. -/
def PerLane.toList {α : Type} (t : PerLane α) : List α :=
  [t.l0, t.l1, t.l2, t.l3, t.l4, t.l5, t.l6, t.l7]

def PerOutput.get {α : Type} (t : PerOutput α) : Output → α
  | .mk0 => t.mk0 | .mk1 => t.mk1

def PerOutput.set {α : Type} (t : PerOutput α) (o : Output) (x : α) : PerOutput α :=
  match o with
  | .mk0 => { t with mk0 := x } | .mk1 => { t with mk1 := x }

/-! ### Updates of State's fields -/

def State.withPending (s : State) (x : List Instr) : State := { s with pending := x }
def State.withNow (s : State) (x : Nat) : State := { s with now := x }
def State.withMu (s : State) (x : MotionUnit) : State := { s with mu := x }
def State.withRu (s : State) (x : RepeatUnit) : State := { s with ru := x }
def State.withLanes (s : State) (x : PerLane LaneFrontEnd) : State := { s with lanes := x }
def State.withCb (s : State) (x : CorrectionBlock) : State := { s with cb := x }
def State.withLe (s : State) (x : LevelingEngine) : State := { s with le := x }
def State.withBsc (s : State) (x : BandStore) : State := { s with bsc := x }
def State.withDram (s : State) (x : List Host.Cell) : State := { s with dram := x }
def State.withWindows (s : State) (x : List (Nat × Window)) : State := { s with windows := x }
def State.withPorts (s : State) (x : PerPort ConsumerPort) : State := { s with ports := x }
def State.withShared (s : State) (x : SharedRecord) : State := { s with shared := x }
def State.withMku (s : State) (x : MarkerUnit) : State := { s with mku := x }

/-- A port of the router. -/
def State.port (s : State) (p : Port) : ConsumerPort := s.ports.get p
def State.setPort (s : State) (p : Port) (c : ConsumerPort) : State := s.withPorts (s.ports.set p c)

/-- A lane of the router. -/
def State.lane (s : State) (k : Lane) : LaneFrontEnd := s.lanes.get k
def State.setLane (s : State) (k : Lane) (x : LaneFrontEnd) : State := s.withLanes (s.lanes.set k x)

/-! ### Sparse tables

A table by number is a list of (number, value) pairs with rising numbers; a number that is not listed reads as
absent or as the table's default. -/

/-- The listed value of a number. -/
def tableGet {α : Type} : List (Nat × α) → Nat → Option α
  | [], _ => none
  | (i, x) :: rest, k => if i = k then some x else tableGet rest k

/-- The table with the numbers a to a + n − 1 replaced by those that `run` lists. -/
def tableSplice {α : Type} (t : List (Nat × α)) (a n : Nat) (run : List (Nat × α)) : List (Nat × α) :=
  t.filter (fun e => decide (e.1 < a)) ++ run ++ t.filter (fun e => decide (a + n ≤ e.1))

/-- The table with one number listed. -/
def tablePut {α : Type} (t : List (Nat × α)) (k : Nat) (x : α) : List (Nat × α) := tableSplice t k 1 [(k, x)]

/-- The table with one number not listed. -/
def tableErase {α : Type} (t : List (Nat × α)) (k : Nat) : List (Nat × α) := tableSplice t k 1 []

/-- The pairs of consecutive numbers from a on, without the values equal to a default. -/
def tableRun {α : Type} [DecidableEq α] (default : α) : Nat → List α → List (Nat × α)
  | _, [] => []
  | a, x :: xs => if x = default then tableRun default (a + 1) xs else (a, x) :: tableRun default (a + 1) xs

/-- The canonical form: numbers strictly rising. -/
def tableSorted {α : Type} (t : List (Nat × α)) : Prop := t.Pairwise (fun x y => x.1 < y.1)

/-! ### The DRAM store (R96) -/

/-- The byte at an address of the store; an address not listed reads as `Config.dramPowerOn` (log 8). -/
def dramRead (mem : List Host.Cell) (a : Nat) : Byte := (tableGet mem a).getD Config.dramPowerOn

/-- The store with consecutive bytes written from an address on. Bytes at and above the store's 2 GiB do not
exist: a run that would reach them writes nothing (log 22; R96's addresses never do). -/
def dramWrite (mem : List Host.Cell) (a : Nat) (bytes : List Byte) : List Host.Cell :=
  if a + bytes.length ≤ Config.storeBytes then
    tableSplice mem a bytes.length (tableRun Config.dramPowerOn a bytes)
  else mem

/-- The store's canonical form: addresses strictly rising and inside the store, no cell equal to what an
unlisted address reads as. -/
abbrev Memory.wf (mem : List Host.Cell) : Prop :=
  mem.Pairwise (fun x y => x.1 < y.1) ∧ ∀ c ∈ mem, c.1 < Config.storeBytes ∧ c.2 ≠ Config.dramPowerOn

/-- The address of sample 0 of a line of a block in a slot: slot s lies at s × 524288, and line IRL i of the band
at slot line i − 64 × block (R96). -/
def sampleAddress (slot block irl : Nat) : Nat :=
  slot * Config.slotBytes + (irl - Config.blockLines * block) * Config.slotLineBytes

/-! ### The clock (log 3) -/

/-- The clock moved forward to the time an event is due at; it never moves back. -/
def State.clockAt (s : State) (due : Nat) : State := s.withNow (max s.now due)

end Sys2Proof.Machine
end

