-- ==== Sys2Proof/Machine/Flags.lean ====
section
/-!
DEFINITION. Notice kinds: sets of kinds, the raising of a kind at a port (R171) and at the set of ports that
depends on the kind (R170).
-/

namespace Sys2Proof.Machine

/-- The code of a notice kind (11.3). -/
def noticeCode : NoticeKind → Nat
  | .repeatOpened => 0 | .lock => 1 | .motion => 2 | .skip => 3 | .pressure => 4 | .lane => 5 | .encoder => 6
  | .stall => 7 | .adopt => 8 | .marker => 9 | .commit => 10 | .level => 11 | .claim => 12

/-- The notice kind of a code, if it names one (11.3). -/
def noticeOfCode : Nat → Option NoticeKind
  | 0 => some .repeatOpened | 1 => some .lock | 2 => some .motion | 3 => some .skip | 4 => some .pressure
  | 5 => some .lane | 6 => some .encoder | 7 => some .stall | 8 => some .adopt | 9 => some .marker
  | 10 => some .commit | 11 => some .level | 12 => some .claim | _ => none

/-- The set holding one kind. -/
def noticeBit (k : NoticeKind) : NoticeSet := BitVec.ofNat 13 (2 ^ noticeCode k)

/-- Whether a set holds a kind. -/
def NoticeSet.has (kinds : NoticeSet) (k : NoticeKind) : Bool := kinds.getLsbD (noticeCode k)

/-- A set with a kind added. -/
def NoticeSet.add (kinds : NoticeSet) (k : NoticeKind) : NoticeSet := kinds ||| noticeBit k

/-- A set with a kind taken out. -/
def NoticeSet.remove (kinds : NoticeSet) (k : NoticeKind) : NoticeSet := kinds &&& ~~~ (noticeBit k)

/-- A kind raised at a port that is in the kind's set (R171): it joins the pending set if it is not in it, and is
then named in the waiting notice frame, old or new, if the mask enables it. -/
def raisePort (k : NoticeKind) (c : ConsumerPort) : ConsumerPort :=
  if NoticeSet.has c.pendingSet k then c
  else
    { c with
      pendingSet := NoticeSet.add c.pendingSet k
      notice := if NoticeSet.has c.mask k then some (NoticeSet.add (c.notice.getD 0) k) else c.notice }

/-- A kind raised at the ports that a test selects (R170). -/
def raiseWhere (sel : Port → ConsumerPort → Bool) (k : NoticeKind) (s : State) : State :=
  s.withPorts (s.ports.map fun p c => if sel p c then raisePort k c else c)

/-- A LIVE port. -/
def ConsumerPort.isLive (c : ConsumerPort) : Bool := c.state == .live

/-- A port whose link is up: LIVE or STALLED. -/
def ConsumerPort.isUp (c : ConsumerPort) : Bool := c.state != .down

/-- Raised at every LIVE or STALLED port. -/
def raiseUp (k : NoticeKind) (s : State) : State := raiseWhere (fun _ c => c.isUp) k s

/-- Raised at every LIVE port. -/
def raiseLive (k : NoticeKind) (s : State) : State := raiseWhere (fun _ c => c.isLive) k s

/-- Raised at every LIVE port other than one. -/
def raiseOthers (p : Port) (k : NoticeKind) (s : State) : State :=
  raiseWhere (fun q c => decide (q ≠ p) && c.isLive) k s

/-- Raised at one port, if it is LIVE or STALLED. -/
def raiseAt (p : Port) (k : NoticeKind) (s : State) : State :=
  raiseWhere (fun q c => decide (q = p) && c.isUp) k s

end Sys2Proof.Machine
end

