-- ==== Sys2Proof/Machine/Correction.lean ====
section
/-!
DEFINITION. The Correction Block's work on lines (4.3) and the completion of a page commit (R78).
-/

namespace Sys2Proof.Machine

/-- The entry of a correction table or of the staging page; an unlisted entry is unity (R69, R73). -/
def correctionAt (t : List (Nat × Correction)) (n : Nat) : Correction := (tableGet t n).getD Correction.unity

/-- A sample with correction enable on (R70): dark level subtracted, gain applied, rounded to nearest, clamped to 255. -/
def correctSample (c : Correction) (x : Sample) : Byte :=
  BitVec.ofNat 8 (min 255 (((x.toNat - c.dark) * c.gain + 32768) / 65536))

/-- A sample with correction enable off: divided by 16, rounded down (R71). -/
def narrowSample (x : Sample) : Byte := BitVec.ofNat 8 (x.toNat / 16)

/-- The samples of a line corrected by the lane's table from a sample position on (R70, R72). -/
def correctFrom (t : List (Nat × Correction)) : Nat → List Sample → List Byte
  | _, [] => []
  | p, x :: xs => correctSample (correctionAt t p) x :: correctFrom t (p + 1) xs

/-- The correction of a captured line under the correction enable (R70, R71). -/
def correctLine (t : List (Nat × Correction)) (enable : Bool) (xs : List Sample) : List Byte :=
  if enable then correctFrom t 0 xs else xs.map narrowSample

/-- The staging page copied into a page of a table: staging entry j to entry 256 × page + j (R78). -/
def copyPage (staging : List (Nat × Correction)) (page : Nat) (t : List (Nat × Correction)) : List (Nat × Correction) :=
  tableSplice t (Config.pageEntries * page) Config.pageEntries
    ((staging.filter fun e => decide (e.1 < Config.pageEntries)).map fun e => (Config.pageEntries * page + e.1, e.2))

/-- A commit for a lane, if pending, completes (R78): the page is copied and COMMIT raised at the requesting port if that
port is LIVE or STALLED. The points at which a lane reaches its completion are R79's. -/
def completeCommit (k : Lane) (s : State) : State :=
  match s.cb.commit with
  | none => s
  | some c =>
    if c.lane = k then
      raiseAt c.port .commit (s.withCb { s.cb with
        tables := s.cb.tables.set k (copyPage s.cb.staging c.page (s.cb.tables.get k)), commit := none })
    else s

end Sys2Proof.Machine
end

