-- ==== Sys2Proof/Machine/Leveling.lean ====
section
/-!
DEFINITION. The Leveling Engine's search (5.3), its end (5.4) and the staging of offsets (R88).
-/

namespace Sys2Proof.Machine

/-- Whether some lane of the set is WAITING. -/
def Search.anyWaiting (x : Search) : Bool :=
  x.records.toList.any fun r => match r with
    | none => false
    | some r => r.status == .waiting

/-- A lane's result at an end by EDGES or SPAN, before the reference is judged, given the reference's edge (R87). -/
def rawResult (reference : Option Edge) (r : SearchRecord) : LaneResult :=
  match r.status with
  | .waiting => { probe := r.probe, status := .notFound, edge := none, newOffset := none }
  | .notRunning => { probe := r.probe, status := .notRunning, edge := none, newOffset := none }
  | .edge =>
    match r.edge, reference with
    | some e, some ref =>
      let sum := (e.offset : Int) + lineDiff e.stamp ref.stamp
      if 0 ≤ sum ∧ sum ≤ 4095 then { probe := r.probe, status := .found, edge := some e, newOffset := some sum.toNat }
      else { probe := r.probe, status := .outOfRange, edge := some e, newOffset := none }
    | e, _ => { probe := r.probe, status := .noReference, edge := e, newOffset := none }

/-- The edge of the reference lane, if it has one. -/
def Search.referenceEdge (x : Search) : Option Edge :=
  match x.records.get x.request.reference with
  | none => none
  | some r => if r.status = .edge then r.edge else none

/-- Whether the reference lane's own result is FOUND (R87). -/
def Search.referenceFound (x : Search) : Bool :=
  match x.records.get x.request.reference with
  | none => false
  | some r => (rawResult x.referenceEdge r).status == .found

/-- A lane's result (R87): by ABORT every lane is ABORTED; else without a FOUND reference every other lane is NO_REFERENCE. -/
def laneResult (x : Search) (cause : EndCause) (k : Lane) (r : SearchRecord) : LaneResult :=
  if cause = .abort then { probe := r.probe, status := .aborted, edge := r.edge, newOffset := none }
  else
    let raw := rawResult x.referenceEdge r
    if x.referenceFound = true ∨ k = x.request.reference then raw
    else { raw with status := .noReference, newOffset := none }

/-- The results of a search (R87). -/
def Search.results (x : Search) (cause : EndCause) : PerLane (Option LaneResult) :=
  x.records.map fun k r => r.map (laneResult x cause k)

/-- The offset item of each FOUND lane written with its new offset (R88, R47). -/
def stageOffsets (results : PerLane (Option LaneResult)) (s : State) : State :=
  s.withLanes (s.lanes.map fun k lane =>
    match results.get k with
    | none => lane
    | some r => if r.status = .found then { lane with pendingOffset := r.newOffset } else lane)

/-- Whether a lane's result is FOUND. -/
def isFound (r : Option LaneResult) : Bool :=
  match r with
  | none => false
  | some r => r.status == .found

/-- The end of a search (R87, R88, R89): results formed, offsets staged unless aborted, DONE, LEVEL raised at the requesting
port if it is LIVE or STALLED. -/
def endSearch (x : Search) (cause : EndCause) (endWln : Line) (s : State) : State :=
  let results := x.results cause
  let s :=
    if cause ≠ .abort ∧ x.request.apply = true ∧ isFound (results.get x.request.reference) = true then stageOffsets results s else s
  raiseAt x.port .level (s.withLe (.done
    { request := x.request, port := x.port, start := x.start, cause := cause, endWln := endWln, results := results }))

/-- A search record changed; the search ends by EDGES at the current WLN when no lane of the set is WAITING any more
(R84, R85). -/
def updateRecord (x : Search) (k : Lane) (r : SearchRecord) (s : State) : State :=
  let x := { x with records := x.records.set k (some r) }
  if x.anyWaiting then s.withLe (.searching x) else endSearch x .edges s.mu.wln s

/-- The search record after an examined line, given the value at the probe, none where it is absent (R84). -/
def examine (threshold : Nat) (stamp : Line) (offset : Nat) (v : Option Byte) (r : SearchRecord) : SearchRecord :=
  match v with
  | none => { r with previous := none }
  | some v =>
    match r.previous with
    | none => { r with previous := some v }
    | some u =>
      if u.toNat < threshold ∧ threshold ≤ v.toNat then
        { r with status := .edge, edge := some { stamp := stamp, offset := offset }, previous := some v }
      else { r with previous := some v }

/-- A line handed to the Leveling Engine with its stamp and recorded offset; a missing line has no samples (R84). -/
def levelLine (k : Lane) (stamp : Line) (offset : Nat) (samples : Option (List Byte)) (s : State) : State :=
  match s.le with
  | .idle => s
  | .done _ => s
  | .searching x =>
    match x.records.get k with
    | none => s
    | some r =>
      if r.status = .waiting ∧ 0 ≤ lineDiff stamp x.start then
        let v := match samples with
          | none => none
          | some bytes => bytes[r.probe]?
        let r' := examine x.request.threshold stamp offset v r
        if r'.status = .edge then updateRecord x k r' s
        else s.withLe (.searching { x with records := x.records.set k (some r') })
      else s

/-- A lane whose state leaves RUN: NOT_RUNNING if it was WAITING (R85). -/
def levelLeavesRun (k : Lane) (s : State) : State :=
  match s.le with
  | .idle => s
  | .done _ => s
  | .searching x =>
    match x.records.get k with
    | none => s
    | some r => if r.status = .waiting then updateRecord x k { r with status := .notRunning } s else s

/-- A due line at the Leveling Engine (R86), also the command SPAN_END (log 12): at or beyond the span the search ends. -/
def levelSpan (w : Line) (s : State) : State :=
  match s.le with
  | .idle => s
  | .done _ => s
  | .searching x => if (x.request.span : Int) ≤ lineDiff w x.start then endSearch x .span w s else s

end Sys2Proof.Machine
end

