-- ==== Sys2Proof/Machine/Bands.lean ====
section
/-!
DEFINITION. The band table, the free list, store pressure and the release of entries (6.2, 6.3, 6.7, 6.8).
-/

namespace Sys2Proof.Machine

/-- The record of a slot that is not FREE. -/
def State.band (s : State) (slot : Nat) : Option Band := tableGet s.bsc.bands slot

/-- A band record written. -/
def putBand (slot : Nat) (b : Band) (s : State) : State :=
  s.withBsc { s.bsc with bands := tablePut s.bsc.bands slot b }

/-- Store pressure judged, as at every change of the free count (R108) and of the reserve (R109). -/
def judgePressure (s : State) : State :=
  if s.bsc.pressure then
    if s.bsc.reserve + Config.pressureMargin < s.bsc.free.length then
      raiseLive .pressure (s.withBsc { s.bsc with pressure := false })
    else s
  else if s.bsc.free.length ≤ s.bsc.reserve then
    raiseLive .pressure (s.withBsc { s.bsc with pressure := true })
  else s

/-- A slot becomes FREE: its record's fields become absent and its number joins the tail of the free list (R94, R106, R107). -/
def freeSlot (slot : Nat) (s : State) : State :=
  judgePressure (s.withBsc { s.bsc with bands := tableErase s.bsc.bands slot, free := s.bsc.free ++ [slot] })

/-- The release of one entry that names a slot (R107): the holder count falls by one, and at 0 the slot becomes FREE.
A slot that is not HELD is named by no entry (R107) and is left as it is (log 22). -/
def releaseSlot (slot : Nat) (s : State) : State :=
  match s.band slot with
  | none => s
  | some b =>
    match b.sealing with
    | none => s
    | some r =>
      if r.holders ≤ 1 then freeSlot slot s
      else putBand slot { b with sealing := some { r with holders := r.holders - 1 } } s

end Sys2Proof.Machine
end

