-- ==== Sys2Proof/Machine/Matching.lean ====
section
/-!
DEFINITION. The Window Matcher: the window table, the matching of a sealed band (7.6), the closure of a window (R118,
R119, R120), and the delivery queues it appends to and withdraws from (R134).
-/

namespace Sys2Proof.Machine

/-! ### The window table and the delivery queues -/

/-- The record of an OPEN or CLOSING window. -/
def State.window (s : State) (id : Nat) : Option Window := tableGet s.windows id

def putWindow (id : Nat) (w : Window) (s : State) : State := s.withWindows (tablePut s.windows id w)

/-- The window becomes FREE: every field except its id becomes absent. -/
def eraseWindow (id : Nat) (s : State) : State := s.withWindows (tableErase s.windows id)

/-- The ids of the windows that are not FREE, ascending. -/
def State.windowIds (s : State) : List Nat := s.windows.map (·.1)

/-- A port's delivery queue of a class (R134). -/
def ConsumerPort.queue (c : ConsumerPort) : DeliveryClass → List Entry
  | .essential => c.essential
  | .sheddable => c.sheddable

def ConsumerPort.setQueue (c : ConsumerPort) (cls : DeliveryClass) (q : List Entry) : ConsumerPort :=
  match cls with
  | .essential => { c with essential := q }
  | .sheddable => { c with sheddable := q }

/-- The window of the strip a port has in flight, if it has one (R137). -/
def ConsumerPort.stripWindow (c : ConsumerPort) : Option Nat :=
  match c.outbound with
  | some (.strip e _) => some e.window
  | some (.response _) => none
  | some (.notice _) => none
  | none => none

/-! ### Matching (R123 to R127) -/

/-- The last web column of a band. -/
def Band.lastColumn (b : Band) : Nat := b.base + b.width - 1

/-- The four candidate tests of an OPEN window (R124). -/
def Window.candidate (w : Window) (b : Band) : Bool :=
  w.closing.isNone
  && (match w.lanes with | none => true | some set => set.get b.lane)
  && decide (w.c0 ≤ b.lastColumn) && decide (b.base ≤ w.c1)
  && decide (b.rn.toNat % w.stride = w.phase)
  && decide (w.l0 ≤ b.lastIrl)
  && (match w.l1 with | none => true | some l1 => decide (b.startIrl ≤ l1))

/-- The clips of a candidate window (R125), as the entry they define (R126). -/
def clipEntry (slot id : Nat) (w : Window) (b : Band) : Entry :=
  let first := max b.startIrl w.l0
  let last := match w.l1 with | none => b.lastIrl | some l1 => min b.lastIrl l1
  let firstColumn := max b.base w.c0
  let lastColumn := min b.lastColumn w.c1
  { slot := slot, window := id, firstIrl := first, lines := last + 1 - first,
    firstColumn := firstColumn, columns := lastColumn + 1 - firstColumn, cls := w.cls }

/-- The three conditions under which a candidate's entry is created (R126). -/
def entryAllowed (w : Window) (s : State) : Bool :=
  (s.port w.owner).isLive
  && (w.cls == .essential || !s.bsc.pressure)
  && decide (((s.port w.owner).queue w.cls).length < Config.queueCapacity)

/-- An entry appended to the tail of a port's queue of its class. -/
def appendEntry (p : Port) (e : Entry) (s : State) : State :=
  s.setPort p ((s.port p).setQueue e.cls ((s.port p).queue e.cls ++ [e]))

/-- A lost match (R127): GAP pending, and the dropped counters of the window and of its owner port. -/
def loseMatch (id : Nat) (w : Window) (s : State) : State :=
  let s := putWindow id { w with gap := true, dropped := w.dropped + 1 } s
  s.setPort w.owner { s.port w.owner with dropped := (s.port w.owner).dropped + 1 }

/-- One window judged against a sealed band (R123), with the number of entries created so far. -/
def matchWindow (slot : Nat) (b : Band) (acc : State × Nat) (id : Nat) : State × Nat :=
  match acc.1.window id with
  | none => acc
  | some w =>
    if w.candidate b then
      if entryAllowed w acc.1 then (appendEntry w.owner (clipEntry slot id w b) acc.1, acc.2 + 1)
      else (loseMatch id w acc.1, acc.2)
    else acc

/-- A sealed band matched against every window in ascending id; the number of entries created (R123). -/
def matchBand (slot : Nat) (b : Band) (s : State) : State × Nat :=
  s.windowIds.foldl (matchWindow slot b) (s, 0)

/-! ### Closure (R118 to R120) -/

/-- A list of entries released one after another (R107). -/
def releaseEntries (es : List Entry) (s : State) : State := es.foldl (fun s e => releaseSlot e.slot s) s

/-- The entries of a window withdrawn from a port's queue of a class, oldest first, and released (R118 step 1). -/
def withdraw (id : Nat) (cls : DeliveryClass) (s : State) (p : Port) : State :=
  let q := (s.port p).queue cls
  releaseEntries (q.filter fun e => decide (e.window = id))
    (s.setPort p ((s.port p).setQueue cls (q.filter fun e => decide (e.window ≠ id))))

/-- The number of strips of a window in flight at any port (R118 step 2). -/
def stripsInFlight (id : Nat) (s : State) : Nat :=
  (allPorts.filter fun p => decide ((s.port p).stripWindow = some id)).length

/-- The closure of an OPEN window (R118): its queued entries withdrawn, then FREE or CLOSING. -/
def closeWindow (id : Nat) (s : State) : State :=
  match s.window id with
  | none => s
  | some w =>
    let s := allPorts.foldl (withdraw id w.cls) s
    match stripsInFlight id s with
    | 0 => eraseWindow id s
    | n + 1 => putWindow id { w with closing := some (n + 1) } s

/-- The completion or abort of a strip of a window, after its entry's release (R119): a CLOSING window's strips in
flight fall by one, and at 0 it becomes FREE. -/
def closingStripEnd (id : Nat) (s : State) : State :=
  match s.window id with
  | none => s
  | some w =>
    match w.closing with
    | none => s
    | some n => if n ≤ 1 then eraseWindow id s else putWindow id { w with closing := some (n - 1) } s

end Sys2Proof.Machine
end

