-- ==== Sys2Proof/Machine/Repeat.lean ====
section
/-!
DEFINITION. The Repeat Unit (chapter 2): stamp lookup and repeat queries, the four steps of a due line, mark edges,
the reverse overrun indication and restarts of the numbering.
-/

namespace Sys2Proof.Machine

/-! ### Queries (2.3, 2.8) -/

/-- The IRL of a web line in a log entry (R23). -/
def LogEntry.irlOf (e : LogEntry) (x : Line) : Nat := e.firstIrl + (x - e.start).toNat

/-- "Repeat lines": the whole lines of the nominal repeat (2.1). -/
def RepeatSettings.lines (r : RepeatSettings) : Nat := r.length / 256

/-- The end of the current repeat, in phase units (R24). -/
def RepeatUnit.endPhase (u : RepeatUnit) : Int := (u.settings.length : Int) + 256 * u.stretch

/-- The repeat log, oldest first (R22). -/
def RepeatUnit.entries (u : RepeatUnit) : List LogEntry := u.older ++ [u.newest]

/-- The oldest entry of the log. -/
def RepeatUnit.oldest (u : RepeatUnit) : LogEntry := u.older.headD u.newest

/-- A stamp lookup: the newest entry whose start is at or before the stamp; none is STALE (R39). -/
def RepeatUnit.lookup (u : RepeatUnit) (stamp : Line) : Option LogEntry :=
  u.entries.reverse.find? fun e => atOrBefore e.start stamp

/-- A query by repeat number (R40): the entry of an RN in the log. -/
def RepeatUnit.query (u : RepeatUnit) (rn : Line) : Option LogEntry :=
  u.entries[(rn - u.oldest.rn).toNat]?

/-- The IRL of the current WLN in the newest entry (R23). -/
def State.currentIrl (s : State) : Nat := s.ru.newest.irlOf s.mu.wln

/-! ### Lock state -/

/-- The lock state "goes to" a state: LOCK is raised when the two differ (2.5). -/
def goLock (l : LockState) (s : State) : State :=
  if s.ru.lock = l then s else raiseUp .lock (s.withRu { s.ru with lock := l })

/-! ### Repeat openings (R21, R33, R34, R38) -/

/-- The pending record made the settings in force, the chain emptied and the lock adjusted (R38).
DESIGN CHOICE (log 27): the chain is emptied at every application, as R38 says, also where the record equals the settings in force, of
which R37 says that it applies with no effect. -/
def applySettings (s : State) : State :=
  match s.ru.pendingSettings with
  | none => s
  | some r =>
    let was := s.ru.settings.tracking
    let s := s.withRu { s.ru with settings := r, pendingSettings := none, chain := none }
    match was, r.tracking with
    | false, true => goLock .hunt (s.withRu { s.ru with misses := 0 })
    | true, false => goLock .off s
    | _, _ => s

/-- The newest entry closed at due line w, the oldest removed at 16 entries, and a new entry appended with S 0 and the
mark-accepted flag clear (R21, R22). -/
def closeAndAppend (w : Line) (irregular : Bool) (u : RepeatUnit) : RepeatUnit :=
  let closed := { u.newest with length := some (w - u.newest.start).toNat, irregularEnd := irregular }
  let log := u.older ++ [closed]
  { u with
    older := if log.length < Config.logCapacity then log else log.drop 1
    newest := { rn := u.newest.rn + 1, start := w, firstIrl := 0, length := none, stretch := 0, markIrl := none,
                partialStart := false, irregularEnd := false, lockAtStart := u.lock }
    stretch := 0
    accepted := false }

/-- The first IRL F that a restart gives its repeat, from the settings in force (R32, R33). -/
def restartIrl (kind : RestartKind) (r : RepeatSettings) : Nat :=
  match kind with
  | .requested => 0
  | .acquisition => if r.tracking then r.m + 1 else 0

/-- The newest entry labelled by a restart (R33, R34): first IRL F, PARTIAL_START if F is above 0, phase 256 × F, and for
an acquisition with F above 0 the mark accepted at IRL M. -/
def labelRestart (kind : RestartKind) (u : RepeatUnit) : RepeatUnit :=
  let f := restartIrl kind u.settings
  { u with
    phase := 256 * f
    accepted := if 0 < f then true else u.accepted
    newest := { u.newest with firstIrl := f, partialStart := decide (0 < f),
                              markIrl := if 0 < f then some u.settings.m else u.newest.markIrl } }

/-- The lock state as it stands recorded as the newest entry's lock state at start. -/
def recordLock (u : RepeatUnit) : RepeatUnit := { u with newest := { u.newest with lockAtStart := u.lock } }

/-- A repeat opened at due line w (R21), by phase advance or by a restart. -/
def openRepeat (w : Line) (cause : Option RestartKind) (s : State) : State :=
  let s := applySettings (s.withRu (closeAndAppend w cause.isSome s.ru))
  let u := match cause with
    | none => s.ru
    | some kind => labelRestart kind s.ru
  raiseUp .repeatOpened (s.withRu (recordLock u))

/-! ### The four steps of a due line (R19) -/

/-- Step 1, the phase advance (R20). -/
def phaseAdvance (w : Line) (s : State) : State :=
  let phase := s.ru.phase + 256
  if (phase : Int) < s.ru.endPhase then s.withRu { s.ru with phase := phase }
  else openRepeat w none (s.withRu { s.ru with phase := ((phase : Int) - s.ru.endPhase).toNat })

/-- Step 2, a pending restart applied: a repeat just opened at w is relabelled (R33), an earlier one is closed early (R34). -/
def restartStep (w : Line) (s : State) : State :=
  match s.ru.restart with
  | none => s
  | some kind =>
    let s :=
      if s.ru.newest.start = w then s.withRu (recordLock (labelRestart kind s.ru))
      else openRepeat w (some kind) s
    s.withRu { s.ru with restart := none }

/-- Step 3, the window-end check (R29). -/
def windowEnd (w : Line) (s : State) : State :=
  let r := s.ru.settings
  if (s.ru.lock = .locked ∨ s.ru.lock = .coast) ∧ s.ru.newest.irlOf w = r.m + r.wc + 1 ∧ s.ru.accepted = false then
    let misses := s.ru.misses + 1
    if r.kmiss ≤ misses then goLock .hunt (s.withRu { s.ru with misses := misses, chain := none })
    else goLock .coast (s.withRu { s.ru with misses := misses })
  else s

/-- Step 4, the chain expiry check (R30), also the command CHAIN_EXPIRY (log 12). -/
def chainExpiry (w : Line) (s : State) : State :=
  match s.ru.lock, s.ru.chain with
  | .hunt, some c =>
    if (s.ru.settings.lines : Int) + s.ru.settings.wc < lineDiff w c.last then s.withRu { s.ru with chain := none } else s
  | _, _ => s

/-- The due line w at the Repeat Unit (R19). -/
def repeatDueLine (w : Line) (s : State) : State := chainExpiry w (windowEnd w (restartStep w (phaseAdvance w s)))

/-! ### Mark edges and the reverse overrun -/

/-- Acquisition (R27). -/
def acquire (s : State) : State :=
  goLock .locked (s.withRu { s.ru with restart := some .acquisition, misses := 0, chain := none })

/-- A mark edge in HUNT, a candidate for the acquisition chain (R26). -/
def markCandidate (s : State) : State :=
  let r := s.ru.settings
  let length := match s.ru.chain with
    | none => 1
    | some c => if (256 * lineDiff s.mu.wln c.last - (r.length : Int)).natAbs ≤ 256 * r.wc then c.length + 1 else 1
  let s := s.withRu { s.ru with chain := some { length := length, last := s.mu.wln } }
  if r.qacq ≤ length then acquire s else s

/-- An error in lines clamped to the correction limit (R28). -/
def clampStretch (cmax : Nat) (e : Int) : Int := max (-(cmax : Int)) (min (cmax : Int) e)

/-- A mark edge in LOCKED or COAST: accepted in the window of a repeat with no accepted mark, stray otherwise (R28). -/
def markJudge (s : State) : State :=
  let r := s.ru.settings
  let i := s.currentIrl
  if (r.m : Int) - r.wc ≤ i ∧ i ≤ r.m + r.wc ∧ s.ru.accepted = false then
    let e := clampStretch r.cmax ((i : Int) - r.m)
    goLock .locked (s.withRu { s.ru with
      stretch := e, accepted := true, misses := 0
      newest := { s.ru.newest with markIrl := some i, stretch := e } })
  else s.withRu { s.ru with strays := s.ru.strays + 1 }

/-- A mark sensor transition (R25). -/
def markTransition (edge : MarkDirection) (s : State) : State :=
  if edge = s.ru.settings.edge then
    match s.ru.lock with
    | .off => s
    | .hunt => markCandidate s
    | .locked | .coast => markJudge s
  else s

/-- The reverse overrun indication (R31). -/
def overrunIndication (s : State) : State :=
  match s.ru.lock with
  | .off => s
  | .hunt | .locked | .coast => goLock .hunt (s.withRu { s.ru with chain := none })

end Sys2Proof.Machine
end

