-- ==== Sys2Proof/Machine/Store.lean ====
section
/-!
DEFINITION. The Band Store Controller's work on lines: seals (6.6), placements (6.4), store exhaustion (6.5), and the
defined content of a band (R97).
-/

namespace Sys2Proof.Machine

/-! ### Seals -/

/-- IRREGULAR as a seal records it (R105): the band's RN is in the log and its entry is closed with IRREGULAR_END. -/
def sealIrregular (u : RepeatUnit) (rn : Line) : Bool :=
  match u.query rn with
  | none => false
  | some e => e.length.isSome && e.irregularEnd

/-- The fields a seal of lane k's band writes (R105); the holder count is set after matching (R106). -/
def sealRecord (k : Lane) (stop : Bool) (b : Band) (s : State) : SealRecord :=
  { fill := (s.lane k).immediate.fill, stopSealed := stop, irregular := sealIrregular s.ru b.rn, lock := s.ru.lock,
    sequence := s.bsc.sealSequence, holders := 0 }

/-- The lane left with no filling band. -/
def clearFilling (k : Lane) (s : State) : State := s.withBsc { s.bsc with filling := s.bsc.filling.set k none }

/-- The seal of a lane's filling band, matching and the setting of the holder count included (R105, R106); without a
filling band there is nothing to seal (R104). -/
def sealBand (k : Lane) (stop : Bool) (s : State) : State :=
  match s.bsc.filling.get k with
  | none => s
  | some slot =>
    match s.band slot with
    | none => clearFilling k s
    | some b =>
      let r := sealRecord k stop b s
      let s := clearFilling k (s.withBsc { s.bsc with sealSequence := s.bsc.sealSequence + 1 })
      let matched := matchBand slot { b with sealing := some r } s
      if matched.2 = 0 then freeSlot slot matched.1
      else putBand slot { b with sealing := some { r with holders := matched.2 } } matched.1

/-- The stop seal: every FILLING band with STOP_SEALED, in ascending lane number (R103). -/
def stopSeal (s : State) : State := allLanes.foldl (fun s k => sealBand k true s) s

/-! ### Placements (R95 to R102) -/

/-- A placement as a lane hands it over (6.4); a missing line has no samples. -/
structure Placement where
  lane : Lane
  samples : Option (List Byte)
  stamp : Line
  rn : Line
  irl : Nat
  firstIrl : Nat
  width : Nat
  base : Nat
  camera : Bool
  deriving DecidableEq, Repr

/-- The block of a line (R95). -/
def Placement.block (x : Placement) : Nat := x.irl / Config.blockLines

/-- Whether a line extends a filling band (R95). -/
def Placement.fits (x : Placement) (b : Band) : Bool :=
  decide (b.rn = x.rn) && decide (b.block = x.block) && decide (b.width = x.width) && decide (b.base = x.base)

/-- A line placed into its lane's filling band (R95, R96), which is sealed when its block is complete (R100). -/
def extendBand (slot : Nat) (b : Band) (x : Placement) (s : State) : State :=
  let s := match x.samples with
    | none => putBand slot { b with lastIrl := x.irl } s
    | some samples =>
      let written := samples.take b.width
      let s := putBand slot { b with lastIrl := x.irl, presence := b.presence ++ [(x.irl, written.length)] } s
      s.withDram (dramWrite s.dram (sampleAddress slot b.block x.irl) written)
  if x.irl = Config.blockLines * b.block + (Config.blockLines - 1) then sealBand x.lane false s else s

/-- The record of a band opened by a line (R99), before the line is placed into it. -/
def openedBand (x : Placement) (overrun : Bool) : Band :=
  { lane := x.lane, rn := x.rn, block := x.block, startIrl := x.irl, lastIrl := x.irl, presence := [],
    startStamp := x.stamp, width := x.width, base := x.base,
    partialStart := decide (Config.blockLines * x.block < x.firstIrl) && decide (x.irl = x.firstIrl),
    test := !x.camera, overrun := overrun, sealing := none }

/-- A line that begins a new band (R98 steps 2 to 4), or is lost to an empty free list (R101). -/
def openBand (x : Placement) (s : State) : State :=
  match s.bsc.free with
  | [] => s.withBsc { s.bsc with overrunLines := s.bsc.overrunLines + 1, overrunPending := s.bsc.overrunPending.set x.lane true }
  | slot :: free =>
    let b := openedBand x (s.bsc.overrunPending.get x.lane)
    let s := s.withBsc { s.bsc with
      bands := tablePut s.bsc.bands slot b, free := free, filling := s.bsc.filling.set x.lane (some slot),
      overrunPending := s.bsc.overrunPending.set x.lane false }
    extendBand slot b x (judgePressure s)

/-- A placement at the Band Store Controller: it extends the lane's filling band (R95), or that band is sealed and a new one
begun (R98). -/
def place (x : Placement) (s : State) : State :=
  match s.bsc.filling.get x.lane with
  | none => openBand x s
  | some slot =>
    match s.band slot with
    | none => openBand x (sealBand x.lane false s)
    | some b => if x.fits b then extendBand slot b x s else openBand x (sealBand x.lane false s)

/-! ### Content (R97) -/

/-- The defined content of a sealed band at an IRL and a sample position (R97). -/
def bandContent (mem : List Host.Cell) (slot : Nat) (b : Band) (fill : Byte) (irl pos : Nat) : Byte :=
  match tableGet b.presence irl with
  | none => fill
  | some n => if pos < n then dramRead mem (sampleAddress slot b.block irl + pos) else fill

end Sys2Proof.Machine
end

