-- ==== Sys2Proof/Machine/Lanes.lean ====
section
/-!
DEFINITION. The Lane Front Ends (chapter 3): line events, the pattern checker, drains, pending items at a repeat-start
trigger, triggers, line arrivals, link loss and link return.
-/

namespace Sys2Proof.Machine

/-- A lane changed by a function. -/
def updateLane (k : Lane) (f : LaneFrontEnd → LaneFrontEnd) (s : State) : State := s.setLane k (f (s.lane k))

/-- A lane's counters changed by a function. -/
def countLane (k : Lane) (f : LaneCounters → LaneCounters) (s : State) : State :=
  updateLane k (fun l => { l with counters := f l.counters }) s

/-- The lane's mode in force (R45): none stands for OFF. -/
def LaneState.mode : LaneState → Option ActiveMode
  | .off => none
  | .active m => some m
  | .fault m => some m

/-! ### Line events (3.6, 3.7) -/

/-- What a line event carries: nothing, a camera line, or a line of the test source (R53). -/
inductive LineBody where
  | missing
  | camera (samples : List Sample)
  | test
  deriving DecidableEq, Repr

/-- The line that a lane's test source synthesises for a trigger (R55), over the width in force. -/
def testLine (l : LaneFrontEnd) (w : Line) : List Sample :=
  match l.source with
  | .ramp => (List.range l.width).map fun p => BitVec.ofNat 12 ((p + w.toNat) % 256 * 16)
  | .flat => List.replicate l.width l.immediate.flat
  | .camera => []

/-- The samples of a line event before any cut, none for a missing line. -/
def LineBody.samples (b : LineBody) (l : LaneFrontEnd) (w : Line) : Option (List Sample) :=
  match b with
  | .missing => none
  | .camera xs => some xs
  | .test => some (testLine l w)

/-- The long and short counters after a line of n samples is judged against the width (R60, R62). -/
def judgeLength (width n : Nat) (c : LaneCounters) : LaneCounters :=
  if width < n then { c with long := c.long + 1 }
  else if n < width then { c with short := c.short + 1 }
  else c

/-- The length of a camera line judged; missing lines and test lines are not judged (R60). -/
def LineBody.judge (b : LineBody) (width : Nat) (c : LaneCounters) : LaneCounters :=
  match b with
  | .missing => c
  | .camera xs => judgeLength width xs.length c
  | .test => c

/-- Sample positions, from p on, that differ from (p + base) mod 4096. -/
def mismatchesFrom (base : Sample) : Nat → List Sample → Nat
  | _, [] => 0
  | p, x :: xs => (if x = BitVec.ofNat 12 p + base then 0 else 1) + mismatchesFrom base (p + 1) xs

/-- The mismatches of a line over a width: a position beyond the line's end counts as one (R62). -/
def mismatches (base : Sample) (width : Nat) (xs : List Sample) : Nat :=
  mismatchesFrom base 0 (xs.take width) + (width - xs.length)

/-- The checker and the counters after a captured line (R63, R64). -/
def checkCaptured (width : Nat) (xs : List Sample) (ch : Checker) (c : LaneCounters) : Checker × LaneCounters :=
  if ch.inStep then
    let bad := mismatches ch.expected width xs
    let c := { c with checkError := c.checkError + BitVec.ofNat 32 bad }
    if Config.mismatchLimit < bad then ({ ch with inStep := false, cleanRun := 0 }, { c with outOfStep := c.outOfStep + 1 })
    else ({ ch with expected := ch.expected + 1 }, c)
  else
    let q := xs.headD 0
    if mismatches q width xs = 0 then
      if ch.cleanRun + 1 = Config.cleanRunGoal then ({ inStep := true, cleanRun := ch.cleanRun + 1, expected := q + 1 }, c)
      else ({ ch with cleanRun := ch.cleanRun + 1 }, c)
    else ({ ch with cleanRun := 0 }, c)

/-- The checker after a missing line (R63, R64). -/
def checkMissing (ch : Checker) : Checker :=
  if ch.inStep then { ch with expected := ch.expected + 1 } else { ch with cleanRun := 0 }

/-- A line event in recorded mode CHECK (R62). -/
def checkLine (k : Lane) (w : Line) (b : LineBody) (s : State) : State :=
  updateLane k (fun l =>
    match b.samples l w with
    | none => { l with checker := checkMissing l.checker }
    | some xs =>
      let r := checkCaptured l.width xs l.checker (b.judge l.width l.counters)
      { l with checker := r.1, counters := r.2 }) s

/-- The lane at placement: last stamp, the width and column base item where it applies, band RN, and the length of the
line judged (R60, R52). -/
def lanePlaced (stamp rn : Line) (b : LineBody) (l : LaneFrontEnd) : LaneFrontEnd :=
  let l := { l with lastStamp := some stamp }
  let l := if l.bandRn = some rn then l
    else match l.pendingWidth with
      | none => { l with bandRn := some rn }
      | some item => { l with bandRn := some rn, width := item.1, base := item.2, pendingWidth := none }
  { l with counters := b.judge l.width l.counters }

/-- A line event in recorded mode RUN, from its stamp on (R59 to R61). A realign discard and a stale line are counted whatever gave the
line event: also for the missing lines of a lane in FAULT, of which R56 says that no counter is incremented (log 26). -/
def runLine (k : Lane) (w : Line) (offset : Nat) (b : LineBody) (s : State) : State :=
  let stamp := w - BitVec.ofNat 32 offset
  let early := match (s.lane k).lastStamp with
    | none => false
    | some last => atOrBefore stamp last
  if early then countLane k (fun c => { c with realign := c.realign + 1 }) s
  else
    match s.ru.lookup stamp with
    | none => countLane k (fun c => { c with stale := c.stale + 1 }) s
    | some e =>
      let s := updateLane k (lanePlaced stamp e.rn b) s
      let l := s.lane k
      let bytes := (b.samples l w).map fun xs =>
        correctLine (s.cb.tables.get k) l.immediate.correction (xs.take l.width)
      let s := place { lane := k, samples := bytes, stamp := stamp, rn := e.rn, irl := e.irlOf stamp, firstIrl := e.firstIrl,
                       width := l.width, base := l.base, camera := decide (l.source = .camera) } s
      levelLine k stamp offset bytes s

/-- The immediate settings item applied, if present (R53). -/
def applyImmediate (l : LaneFrontEnd) : LaneFrontEnd :=
  match l.pendingImmediate with
  | none => l
  | some i => { l with immediate := i, pendingImmediate := none }

/-- A line event (R53): a pending commit for the lane completes (R79), the immediate settings apply, and the line is handled
in its recorded mode. -/
def lineEvent (k : Lane) (w : Line) (offset : Nat) (mode : ActiveMode) (b : LineBody) (s : State) : State :=
  let s := updateLane k applyImmediate (completeCommit k s)
  match mode with
  | .run => runLine k w offset b s
  | .check => checkLine k w b s

/-! ### The trigger FIFO and drains (R50, R51, R54) -/

/-- The oldest FIFO entry removed and handled as a line event; the drain count falls, and where that brings it to 0 the
filling band is sealed after the line event (R50). -/
def removeOldest (k : Lane) (b : LineBody) (s : State) : State :=
  match (s.lane k).fifo with
  | [] => s
  | e :: rest =>
    let drained := (s.lane k).drain = 1
    let s := updateLane k (fun l => { l with fifo := rest, drain := l.drain - 1 }) s
    let s := lineEvent k e.wln e.offset e.mode b s
    if drained then sealBand k false s else s

/-- The oldest entry lost as a missing line with the no-response counter incremented (R54, R51). -/
def loseOldest (k : Lane) (s : State) : State :=
  countLane k (fun c => { c with noResponse := c.noResponse + 1 }) (removeOldest k .missing s)

/-- n entries flushed as missing lines, each counted as no-response (R51). -/
def flushCounted (k : Lane) : Nat → State → State
  | 0, s => s
  | n + 1, s => flushCounted k n (loseOldest k s)

/-- n entries flushed as missing lines (R65). -/
def flushMissing (k : Lane) : Nat → State → State
  | 0, s => s
  | n + 1, s => flushMissing k n (removeOldest k .missing s)

/-! ### Pending items at a repeat-start trigger (R48 to R51) -/

/-- The lane state after a pending mode is applied (R48). -/
def LaneState.afterMode (st : LaneState) (linkUp : Bool) (m : LaneMode) : LaneState :=
  match st, m with
  | _, .off => .off
  | .fault _, .active a => .fault a
  | .off, .active a => if linkUp then .active a else .fault a
  | .active _, .active a => .active a

/-- Whether a lane state is FAULT. -/
def LaneState.isFault : LaneState → Bool
  | .fault _ => true
  | .off => false
  | .active _ => false

/-- The lane's state changed, with what follows at once: LANE at entry to and exit from FAULT (R48), a pending commit
completed at the change to OFF or FAULT (R79), and the Leveling Engine told of a lane that leaves RUN (R85). -/
def changeState (k : Lane) (new : LaneState) (s : State) : State :=
  let old := (s.lane k).state
  let s := updateLane k (fun l => { l with state := new }) s
  let s := if old.isFault ≠ new.isFault then raiseUp .lane s else s
  let s := if old ≠ new ∧ (new = .off ∨ new.isFault = true) then completeCommit k s else s
  if old = .active .run ∧ new ≠ .active .run then levelLeavesRun k s else s

/-- The actions of a change of the mode in force (R49), a drain begun on an empty FIFO ending at once (R50). -/
def modeActions (k : Lane) (old new : Option ActiveMode) (s : State) : State :=
  let s := if new = some .run ∧ old ≠ some .run then
    updateLane k (fun l => { l with lastStamp := none, bandRn := none }) s else s
  let s := if new = some .check ∧ old ≠ some .check then
    updateLane k (fun l => { l with checker := { l.checker with inStep := false, cleanRun := 0 } }) s else s
  if old = some .run ∧ new ≠ some .run then
    let s := updateLane k (fun l => { l with drain := l.fifo.length }) s
    if (s.lane k).drain = 0 then sealBand k false s else s
  else s

/-- The actions of a change of source (R51): the FIFO flushed as missing lines of the old source (log 13), the drain count
set to 0 and the filling band sealed. -/
def sourceActions (k : Lane) (new : Source) (s : State) : State :=
  if new = (s.lane k).source then s
  else
    let s := flushCounted k (s.lane k).fifo.length s
    sealBand k false (updateLane k (fun l => { l with drain := 0, source := new }) s)

/-- The mode and source item applied (R48), its consequences in the order of R49, R50 and R51. -/
def applyModeItem (k : Lane) (m : LaneMode) (src : Source) (s : State) : State :=
  let old := (s.lane k).state
  let new := old.afterMode (s.lane k).linkUp m
  let s := changeState k new (updateLane k (fun l => { l with pendingMode := none }) s)
  sourceActions k src (modeActions k old.mode new.mode s)

/-- The offset item applied, if present (R48). -/
def applyOffset (l : LaneFrontEnd) : LaneFrontEnd :=
  match l.pendingOffset with
  | none => l
  | some o => { l with offset := o, pendingOffset := none }

/-- The items a lane applies at a trigger that carries the repeat-start mark (R48). DESIGN CHOICE (log 28): R48 gives the two items no
order; the offset item is applied first, and no state shows the order. -/
def applyRepeatStart (k : Lane) (s : State) : State :=
  let s := updateLane k applyOffset s
  match (s.lane k).pendingMode with
  | none => s
  | some item => applyModeItem k item.1 item.2 s

/-! ### Triggers, arrivals and the link -/

/-- A trigger handled in the lane's state and source (R45, R54, R55, R56). A missing line of a lane in FAULT increments no counter for
being missing; its realign and stale discards count as everywhere (log 26). -/
def handleTrigger (k : Lane) (w : Line) (s : State) : State :=
  let l := s.lane k
  match l.state with
  | .off => s
  | .fault m => lineEvent k w l.offset m .missing s
  | .active m =>
    match l.source with
    | .ramp => lineEvent k w l.offset m .test s
    | .flat => lineEvent k w l.offset m .test s
    | .camera =>
      let s := if Config.fifoCapacity ≤ l.fifo.length then loseOldest k s else s
      updateLane k (fun l => { l with fifo := l.fifo ++ [{ wln := w, offset := l.offset, mode := m }] }) s

/-- A trigger at a lane (R10), with its repeat-start mark. -/
def takeTrigger (w : Line) (mark : Bool) (s : State) (k : Lane) : State :=
  handleTrigger k w (if mark then applyRepeatStart k s else s)

/-- A trigger presented to all eight lanes, in ascending number (R10, log 11). -/
def triggerLanes (w : Line) (mark : Bool) (s : State) : State := allLanes.foldl (takeTrigger w mark) s

/-- A line frame from the lane link (R57, R58). None is reported while the link is down (R45), and a frame holds at least one
sample (3.5): such an event does not occur (log 2, log 25). -/
def arriveLine (k : Lane) (frame : LineFrame) (s : State) : State :=
  if (s.lane k).linkUp then
    match frame with
    | .good [] => s
    | .good (x :: xs) =>
      if (s.lane k).fifo = [] then countLane k (fun c => { c with unsolicited := c.unsolicited + 1 }) s
      else removeOldest k (.camera (x :: xs)) s
    | .damaged => removeOldest k .missing (countLane k (fun c => { c with frameError := c.frameError + 1 }) s)
  else s

/-- A lane whose link is lost: counted, and its checker HUNTING with clean run 0 (R65). -/
def LaneFrontEnd.unlinked (l : LaneFrontEnd) : LaneFrontEnd :=
  { l with
    linkUp := false
    counters := { l.counters with linkLoss := l.counters.linkLoss + 1 }
    checker := { l.checker with inStep := false, cleanRun := 0 } }

/-- A lane whose link is lost goes from RUN or CHECK to FAULT (R65). -/
def faultLane (k : Lane) (s : State) : State :=
  match (s.lane k).state with
  | .active m => changeState k (.fault m) s
  | .off => s
  | .fault _ => s

/-- Link loss (R65). -/
def loseLaneLink (k : Lane) (s : State) : State :=
  if (s.lane k).linkUp then
    let s := faultLane k (updateLane k LaneFrontEnd.unlinked s)
    flushMissing k (s.lane k).fifo.length s
  else s

/-- Link return (R66). -/
def returnLaneLink (k : Lane) (s : State) : State :=
  let s := updateLane k (fun l => { l with linkUp := true }) s
  match (s.lane k).state with
  | .fault m => changeState k (.active m) s
  | .off => s
  | .active _ => s

end Sys2Proof.Machine
end

