-- ==== Sys2Proof/Machine/Arbiter.lean ====
section
/-!
DEFINITION. The outbound link of a port: the strip header (R138), the strip begin (R136, R137), the arbiter's choice (R135)
and the stall timer (R141). `settle` judges them for every port at the end of an event (log 9).
-/

namespace Sys2Proof.Machine

/-- The captured sample counts of the clipped lines, 0 for a missing line (R138, 11.5). -/
def clipPresence (b : Band) (e : Entry) : List Nat :=
  (List.range e.lines).map fun i => (tableGet b.presence (e.firstIrl + i)).getD 0

/-- The header of a strip begun for an entry (R138), from its window and its sealed band. -/
def stripHeader (e : Entry) (w : Window) (b : Band) (r : SealRecord) : StripHeader :=
  { window := e.window, origin := w.origin, cls := e.cls, sequence := w.sequence, gap := w.gap,
    slot := e.slot, lane := b.lane, rn := b.rn, block := b.block, startIrl := b.startIrl, lastIrl := b.lastIrl,
    startStamp := b.startStamp, base := b.base, width := b.width,
    partialStart := b.partialStart, test := b.test, overrun := b.overrun, stopSealed := r.stopSealed, irregular := r.irregular,
    lock := r.lock, sealSequence := r.sequence,
    firstIrl := e.firstIrl, lines := e.lines, firstColumn := e.firstColumn, columns := e.columns,
    presence := clipPresence b e }

/-- The entry a strip would be begun for: the head of the essential queue, else of the sheddable queue (R136). -/
def ConsumerPort.nextEntry (c : ConsumerPort) : Option Entry :=
  match c.essential with
  | e :: _ => some e
  | [] => c.sheddable.head?

/-- The port with the entry of `nextEntry` removed from its queue. -/
def ConsumerPort.dropEntry (c : ConsumerPort) : ConsumerPort :=
  match c.essential with
  | _ :: q => { c with essential := q }
  | [] => { c with sheddable := c.sheddable.tail }

/-- The window after a strip begin (R137 steps 3 to 5). -/
def Window.begun (w : Window) : Window := { w with sequence := w.sequence + 1, gap := false, sent := w.sent + 1 }

/-- A strip begin for an entry at a port (R137). Every queued entry names an OPEN window (R118) and a HELD band (R107); without
them nothing is begun (log 22). -/
def beginStrip (p : Port) (e : Entry) (s : State) : State :=
  match s.window e.window, s.band e.slot with
  | some w, some b =>
    match b.sealing with
    | none => s
    | some r =>
      let c := (s.port p).dropEntry
      (putWindow e.window w.begun s).setPort p { c with
        credit := c.credit - 1
        sent := c.sent + 1
        outbound := some (.strip e (stripHeader e w b r)) }
  | _, _ => s

/-- The arbiter of a port (R135): while its link is up and idle, the oldest waiting response, else the waiting notice frame,
else a strip if the port is LIVE with credit and an entry (R136). -/
def arbitrate (s : State) (p : Port) : State :=
  let c := s.port p
  match c.state, c.outbound with
  | .down, _ => s
  | _, some _ => s
  | st, none =>
    match c.responses, c.notice with
    | r :: rest, _ => s.setPort p { c with responses := rest, outbound := some (.response r) }
    | [], some kinds => s.setPort p { c with notice := none, outbound := some (.notice kinds) }
    | [], none =>
      match c.nextEntry with
      | none => s
      | some e => if st = .live ∧ 1 ≤ c.credit then beginStrip p e s else s

/-- The three conditions under which a port's stall timer runs (R141). -/
def ConsumerPort.stalling (c : ConsumerPort) : Bool :=
  c.isLive && decide (c.credit = 0) && !(c.essential.isEmpty && c.sheddable.isEmpty)

/-- The stall timer of a port judged (R141): started with the stall timeout in force when its conditions come to hold,
stopped when one ceases to hold, left running otherwise. -/
def judgeStall (s : State) (c : ConsumerPort) : ConsumerPort :=
  if c.stalling then
    match c.stall with
    | some _ => c
    | none => { c with stall := some (s.now + s.shared.stallTimeout * Config.unitsPerMs) }
  else { c with stall := none }

/-- The end of an event: every port's arbiter chooses if its link is idle, then every stall timer is judged (R135, R141, log 9). -/
def settle (s : State) : State :=
  let s := allPorts.foldl arbitrate s
  s.withPorts (s.ports.map fun _ c => judgeStall s c)

end Sys2Proof.Machine
end

