-- ==== Sys2Proof/Machine/Operands.lean ====
section
/-!
DEFINITION. The operands of requests (chapter 11): bytes of a field, the frame check, the judging of a request frame (R177),
the layout of each request kind's fields (11.3) read and written, and the ranges the owning rules check.
-/

namespace Sys2Proof.Machine

/-! ### Fields of several bytes, least significant byte first (11.1) -/

/-- The value of the bytes of a field. -/
def leValue : List Byte → Nat
  | [] => 0
  | b :: bs => b.toNat + 256 * leValue bs

/-- The n bytes of a field's value; a value too large for them keeps its low bytes. -/
def leBytes : Nat → Nat → List Byte
  | 0, _ => []
  | n + 1, v => BitVec.ofNat 8 v :: leBytes n (v / 256)

/-! ### The frame check and the envelope (11.1) -/

/-- One bit of the bit-reversed cyclic check; 0xEDB88320 is the generator 0x04C11DB7 bit-reversed. -/
def crcBit (c : BitVec 32) : BitVec 32 := if c.getLsbD 0 then (c >>> 1) ^^^ 0xEDB88320#32 else c >>> 1

/-- One byte of the check. -/
def crcByte (c : BitVec 32) (b : Byte) : BitVec 32 :=
  crcBit (crcBit (crcBit (crcBit (crcBit (crcBit (crcBit (crcBit (c ^^^ b.setWidth 32))))))))

/-- The frame check: register all ones before the first byte, complemented after the last (11.1). -/
def frameCheck (bytes : List Byte) : BitVec 32 := ~~~ (bytes.foldl crcByte 0xFFFFFFFF#32)

/-- A frame of a type around a body: type, length of the whole frame, body, check (11.1). -/
def envelope (type : Byte) (body : List Byte) : List Byte :=
  let head := type :: leBytes 4 (body.length + 9) ++ body
  head ++ leBytes 4 (frameCheck head).toNat

/-- The body of a request frame: kind, tag and fields (11.3). -/
def requestOfBody : List Byte → Option RequestFrame
  | kind :: tag :: fields => some { kind := kind, tag := tag, fields := fields }
  | _ => none

/-- A received request frame judged (R177): its type byte is 1, it holds at least 11 bytes, its length field is the number of
bytes received, its check field is the check of the bytes before it. None is a mismatched frame. -/
def judgeFrame (bytes : List Byte) : Option RequestFrame :=
  if bytes.head? = some 1 ∧ 11 ≤ bytes.length ∧ leValue ((bytes.drop 1).take 4) = bytes.length
      ∧ leValue (bytes.drop (bytes.length - 4)) = (frameCheck (bytes.take (bytes.length - 4))).toNat then
    requestOfBody ((bytes.drop 5).take (bytes.length - 9))
  else none

/-- The request frame that carries a kind, a tag and fields. -/
def RequestFrame.bytes (f : RequestFrame) : List Byte := envelope 1 (f.kind :: f.tag :: f.fields)

/-! ### Request kinds (11.3) -/

/-- The request kinds. -/
inductive RequestKind where
  | setMotion | setRepeat | repeatRestart | snapshot | log | setLane | laneInfo | pageClear | pageSeek | pageFill | pageCommit
  | tableRead | levelStart | levelAbort | levelResults | windowOpen | windowClose | windowReturn | windowInfo | grant | setStore
  | markOut | setMarkerOut | claim | release | notices | status | restart
  deriving DecidableEq, Repr

/-- The code of a request kind. -/
def RequestKind.code : RequestKind → Nat
  | .setMotion => 1 | .setRepeat => 2 | .repeatRestart => 3 | .snapshot => 4 | .log => 5 | .setLane => 6 | .laneInfo => 7
  | .pageClear => 8 | .pageSeek => 9 | .pageFill => 10 | .pageCommit => 11 | .tableRead => 12 | .levelStart => 13
  | .levelAbort => 14 | .levelResults => 15 | .windowOpen => 16 | .windowClose => 17 | .windowReturn => 18 | .windowInfo => 19
  | .grant => 20 | .setStore => 21 | .markOut => 22 | .setMarkerOut => 23 | .claim => 24 | .release => 25 | .notices => 26
  | .status => 27 | .restart => 28

/-- The request kind of a code; none is a kind that is not known (R165 step 1). -/
def kindOfCode : Nat → Option RequestKind
  | 1 => some .setMotion | 2 => some .setRepeat | 3 => some .repeatRestart | 4 => some .snapshot | 5 => some .log
  | 6 => some .setLane | 7 => some .laneInfo | 8 => some .pageClear | 9 => some .pageSeek | 10 => some .pageFill
  | 11 => some .pageCommit | 12 => some .tableRead | 13 => some .levelStart | 14 => some .levelAbort
  | 15 => some .levelResults | 16 => some .windowOpen | 17 => some .windowClose | 18 => some .windowReturn
  | 19 => some .windowInfo | 20 => some .grant | 21 => some .setStore | 22 => some .markOut | 23 => some .setMarkerOut
  | 24 => some .claim | 25 => some .release | 26 => some .notices | 27 => some .status | 28 => some .restart
  | _ => none

/-- The kind of a request frame. -/
def RequestFrame.requestKind (f : RequestFrame) : Option RequestKind := kindOfCode f.kind.toNat

/-! ### Enumerated codes of requests (11.3) -/

def boolOfCode : Nat → Option Bool
  | 0 => some false | 1 => some true | _ => none

def codeOfBool : Bool → Nat
  | false => 0 | true => 1

def edgeOfCode : Nat → Option MarkDirection
  | 0 => some .rising | 1 => some .falling | _ => none

def codeOfEdge : MarkDirection → Nat
  | .rising => 0 | .falling => 1

def modeOfCode : Nat → Option LaneMode
  | 0 => some .off | 1 => some (.active .run) | 2 => some (.active .check) | _ => none

def codeOfMode : LaneMode → Nat
  | .off => 0 | .active .run => 1 | .active .check => 2

def sourceOfCode : Nat → Option Source
  | 0 => some .camera | 1 => some .ramp | 2 => some .flat | _ => none

def codeOfSource : Source → Nat
  | .camera => 0 | .ramp => 1 | .flat => 2

def classOfCode : Nat → Option DeliveryClass
  | 0 => some .essential | 1 => some .sheddable | _ => none

def codeOfClass : DeliveryClass → Nat
  | .essential => 0 | .sheddable => 1

def outputOfCode : Nat → Option Output
  | 0 => some .mk0 | 1 => some .mk1 | _ => none

def codeOfOutput : Output → Nat
  | .mk0 => 0 | .mk1 => 1

def markerModeOfCode : Nat → Option MarkerMode
  | 0 => some .pulse | 1 => some .toggle | _ => none

def codeOfMarkerMode : MarkerMode → Nat
  | .pulse => 0 | .toggle => 1

def polarityOfCode : Nat → Option Polarity
  | 0 => some .activeHigh | 1 => some .activeLow | _ => none

def codeOfPolarity : Polarity → Nat
  | .activeHigh => 0 | .activeLow => 1

/-- The standby byte of SET_STORE: 255 is none; another value that is no port is no code (R149, 11.3). -/
def standbyOfCode (n : Nat) : Option (Option Port) :=
  if n = 255 then some none else (portOfNumber n).map some

/-- A port byte: 0 to 3, or 255 for none (11.1). -/
def codeOfPort : Option Port → Nat
  | none => 255
  | some p => portNumber p

/-- The NOTICES selector (11.3): true is SET. -/
def selectorOfCode : Nat → Option Bool
  | 0 => some true | 1 => some false | _ => none

def codeOfSelector : Bool → Nat
  | true => 0 | false => 1

/-! ### The fields of each kind (11.3) -/

/-- SET_LANE's fields. -/
structure LaneFields where
  lane : Nat
  mode : LaneMode
  source : Source
  width : Nat
  base : Nat
  offset : Nat
  fill : Nat
  flat : Nat
  correction : Bool
  deriving DecidableEq, Repr

/-- LEVEL_START's fields; the lane set as carried, each lane with its probe. -/
structure LevelFields where
  reference : Nat
  threshold : Nat
  span : Nat
  apply : Bool
  lanes : List (Nat × Nat)
  deriving DecidableEq, Repr

/-- WINDOW_OPEN's fields; lanes none is every lane. -/
structure WindowFields where
  c0 : Nat
  c1 : Nat
  l0 : Nat
  l1 : Option Nat
  stride : Nat
  phase : Nat
  cls : DeliveryClass
  lanes : Option (List Nat)
  deriving DecidableEq, Repr

/-- SET_STORE's fields. -/
structure StoreFields where
  reserve : Nat
  stallTimeout : Nat
  standby : Option Port
  deriving DecidableEq, Repr

/-- MARK_OUT's fields. -/
structure MarkFields where
  output : Output
  rn : Line
  irl : Nat
  width : Nat
  deriving DecidableEq, Repr

/-- SET_MARKER_OUT's fields. -/
structure MarkerFields where
  output : Output
  distance : Nat
  mode : MarkerMode
  polarity : Polarity
  deriving DecidableEq, Repr

/-- A request with its fields read. -/
inductive Request where
  | setMotion (r : MotionSettings)
  | setRepeat (r : RepeatSettings)
  | repeatRestart
  | snapshot
  | log
  | setLane (f : LaneFields)
  | laneInfo (lane : Nat)
  | pageClear
  | pageSeek (entry : Nat)
  | pageFill (entries : List Correction)
  | pageCommit (lane page : Nat)
  | tableRead (lane entry : Nat)
  | levelStart (f : LevelFields)
  | levelAbort
  | levelResults
  | windowOpen (f : WindowFields)
  | windowClose (id : Nat)
  | windowReturn (id : Nat)
  | windowInfo (id : Nat)
  | grant (n : Nat)
  | setStore (f : StoreFields)
  | markOut (f : MarkFields)
  | setMarkerOut (f : MarkerFields)
  | claim
  | release
  | notices (set : Bool) (kinds : List NoticeKind)
  | status
  | restart
  deriving DecidableEq, Repr

/-! ### Fields read (R178): none where a length or a code does not fit the kind's layout -/

/-- No fields. -/
def readNothing : List Byte → Option Unit
  | [] => some ()
  | _ :: _ => none

/-- One field of one byte. -/
def readByte : List Byte → Option Nat
  | [a] => some a.toNat
  | _ => none

def readMotion : List Byte → Option MotionSettings
  | [n0, n1, d0, d1, inv, s0, s1, s2, s3, t0, t1] =>
    (boolOfCode inv.toNat).map fun invert =>
      { n := leValue [n0, n1], d := leValue [d0, d1], invert := invert, spacing := leValue [s0, s1, s2, s3],
        stopTime := leValue [t0, t1] }
  | _ => none

def readRepeat : List Byte → Option RepeatSettings
  | [l0, l1, l2, l3, track, edge, m0, m1, m2, m3, w0, w1, cmax, qacq, kmiss] =>
    match boolOfCode track.toNat, edgeOfCode edge.toNat with
    | some tracking, some edge =>
      some { length := leValue [l0, l1, l2, l3], tracking := tracking, edge := edge, m := leValue [m0, m1, m2, m3],
             wc := leValue [w0, w1], cmax := cmax.toNat, qacq := qacq.toNat, kmiss := kmiss.toNat }
    | _, _ => none
  | _ => none

def readLane : List Byte → Option LaneFields
  | [lane, mode, source, w0, w1, b0, b1, o0, o1, fill, f0, f1, corr] =>
    match modeOfCode mode.toNat, sourceOfCode source.toNat, boolOfCode corr.toNat with
    | some mode, some source, some correction =>
      some { lane := lane.toNat, mode := mode, source := source, width := leValue [w0, w1], base := leValue [b0, b1],
             offset := leValue [o0, o1], fill := fill.toNat, flat := leValue [f0, f1], correction := correction }
    | _, _, _ => none
  | _ => none

def readSeek : List Byte → Option Nat
  | [e0, e1] => some (leValue [e0, e1])
  | _ => none

/-- A list of correction entries, each a dark level and a gain of two bytes. -/
def readEntries : List Byte → Option (List Correction)
  | [] => some []
  | d0 :: d1 :: g0 :: g1 :: rest =>
    (readEntries rest).map fun es => { dark := leValue [d0, d1], gain := leValue [g0, g1] } :: es
  | _ => none

def readFill : List Byte → Option (List Correction)
  | [] => none
  | n :: rest =>
    match readEntries rest with
    | none => none
    | some es => if es.length = n.toNat then some es else none

def readPair : List Byte → Option (Nat × Nat)
  | [a, b] => some (a.toNat, b.toNat)
  | _ => none

def readTable : List Byte → Option (Nat × Nat)
  | [lane, e0, e1] => some (lane.toNat, leValue [e0, e1])
  | _ => none

/-- A list of lanes, each a lane number of one byte and a probe of two. -/
def readProbes : List Byte → Option (List (Nat × Nat))
  | [] => some []
  | k :: p0 :: p1 :: rest => (readProbes rest).map fun ps => (k.toNat, leValue [p0, p1]) :: ps
  | _ => none

def readLevel : List Byte → Option LevelFields
  | ref :: t0 :: t1 :: s0 :: s1 :: s2 :: s3 :: app :: n :: rest =>
    match boolOfCode app.toNat, readProbes rest with
    | some apply, some lanes =>
      if lanes.length = n.toNat then
        some { reference := ref.toNat, threshold := leValue [t0, t1], span := leValue [s0, s1, s2, s3], apply := apply, lanes := lanes }
      else none
    | _, _ => none
  | _ => none

/-- The lane set of WINDOW_OPEN: form 0 with count 0 is every lane, form 1 the explicit set (11.3). -/
def readLaneSet (form n : Nat) (lanes : List Byte) : Option (Option (List Nat)) :=
  if lanes.length ≠ n then none
  else
    match form with
    | 0 => if n = 0 then some none else none
    | 1 => some (some (lanes.map (·.toNat)))
    | _ => none

def readWindow : List Byte → Option WindowFields
  | a0 :: a1 :: a2 :: a3 :: b0 :: b1 :: b2 :: b3 :: l0 :: l1 :: l2 :: l3 :: pres :: m0 :: m1 :: m2 :: m3
      :: s0 :: s1 :: p0 :: p1 :: cls :: form :: n :: rest =>
    match boolOfCode pres.toNat, classOfCode cls.toNat, readLaneSet form.toNat n.toNat rest with
    | some present, some cls, some lanes =>
      some { c0 := leValue [a0, a1, a2, a3], c1 := leValue [b0, b1, b2, b3], l0 := leValue [l0, l1, l2, l3],
             l1 := if present then some (leValue [m0, m1, m2, m3]) else none,
             stride := leValue [s0, s1], phase := leValue [p0, p1], cls := cls, lanes := lanes }
    | _, _, _ => none
  | _ => none

def readStore : List Byte → Option StoreFields
  | [r0, r1, t0, t1, st] =>
    (standbyOfCode st.toNat).map fun standby => { reserve := leValue [r0, r1], stallTimeout := leValue [t0, t1], standby := standby }
  | _ => none

def readMark : List Byte → Option MarkFields
  | [out, r0, r1, r2, r3, i0, i1, i2, i3, w0, w1, w2, w3] =>
    (outputOfCode out.toNat).map fun o =>
      { output := o, rn := BitVec.ofNat 32 (leValue [r0, r1, r2, r3]), irl := leValue [i0, i1, i2, i3],
        width := leValue [w0, w1, w2, w3] }
  | _ => none

def readMarker : List Byte → Option MarkerFields
  | [out, d0, d1, d2, d3, mode, pol] =>
    match outputOfCode out.toNat, markerModeOfCode mode.toNat, polarityOfCode pol.toNat with
    | some o, some mode, some pol => some { output := o, distance := leValue [d0, d1, d2, d3], mode := mode, polarity := pol }
    | _, _, _ => none
  | _ => none

/-- A list of notice kinds; none where a byte is not a notice kind. -/
def readKinds : List Byte → Option (List NoticeKind)
  | [] => some []
  | b :: bs =>
    match noticeOfCode b.toNat, readKinds bs with
    | some k, some ks => some (k :: ks)
    | _, _ => none

def readNotices : List Byte → Option (Bool × List NoticeKind)
  | sel :: n :: rest =>
    match selectorOfCode sel.toNat, readKinds rest with
    | some set, some kinds => if kinds.length = n.toNat then some (set, kinds) else none
    | _, _ => none
  | _ => none

/-- The fields of a request of a kind read by its layout. -/
def readRequest (k : RequestKind) (b : List Byte) : Option Request :=
  match k with
  | .setMotion => (readMotion b).map .setMotion
  | .setRepeat => (readRepeat b).map .setRepeat
  | .repeatRestart => (readNothing b).map fun _ => .repeatRestart
  | .snapshot => (readNothing b).map fun _ => .snapshot
  | .log => (readNothing b).map fun _ => .log
  | .setLane => (readLane b).map .setLane
  | .laneInfo => (readByte b).map .laneInfo
  | .pageClear => (readNothing b).map fun _ => .pageClear
  | .pageSeek => (readSeek b).map .pageSeek
  | .pageFill => (readFill b).map .pageFill
  | .pageCommit => (readPair b).map fun x => .pageCommit x.1 x.2
  | .tableRead => (readTable b).map fun x => .tableRead x.1 x.2
  | .levelStart => (readLevel b).map .levelStart
  | .levelAbort => (readNothing b).map fun _ => .levelAbort
  | .levelResults => (readNothing b).map fun _ => .levelResults
  | .windowOpen => (readWindow b).map .windowOpen
  | .windowClose => (readByte b).map .windowClose
  | .windowReturn => (readByte b).map .windowReturn
  | .windowInfo => (readByte b).map .windowInfo
  | .grant => (readByte b).map .grant
  | .setStore => (readStore b).map .setStore
  | .markOut => (readMark b).map .markOut
  | .setMarkerOut => (readMarker b).map .setMarkerOut
  | .claim => (readNothing b).map fun _ => .claim
  | .release => (readNothing b).map fun _ => .release
  | .notices => (readNotices b).map fun x => .notices x.1 x.2
  | .status => (readNothing b).map fun _ => .status
  | .restart => (readNothing b).map fun _ => .restart

/-! ### Fields written, from the same layouts -/

def Request.kind : Request → RequestKind
  | .setMotion _ => .setMotion | .setRepeat _ => .setRepeat | .repeatRestart => .repeatRestart | .snapshot => .snapshot
  | .log => .log | .setLane _ => .setLane | .laneInfo _ => .laneInfo | .pageClear => .pageClear | .pageSeek _ => .pageSeek
  | .pageFill _ => .pageFill | .pageCommit _ _ => .pageCommit | .tableRead _ _ => .tableRead | .levelStart _ => .levelStart
  | .levelAbort => .levelAbort | .levelResults => .levelResults | .windowOpen _ => .windowOpen | .windowClose _ => .windowClose
  | .windowReturn _ => .windowReturn | .windowInfo _ => .windowInfo | .grant _ => .grant | .setStore _ => .setStore
  | .markOut _ => .markOut | .setMarkerOut _ => .setMarkerOut | .claim => .claim | .release => .release
  | .notices _ _ => .notices | .status => .status | .restart => .restart

/-- The bytes of a correction entry. -/
def entryBytes (c : Correction) : List Byte := leBytes 2 c.dark ++ leBytes 2 c.gain

/-- The bytes of a lane and its probe. -/
def probeBytes (x : Nat × Nat) : List Byte := leBytes 1 x.1 ++ leBytes 2 x.2

/-- The lane form, count and lane bytes of WINDOW_OPEN. -/
def laneSetBytes : Option (List Nat) → List Byte
  | none => leBytes 1 0 ++ leBytes 1 0
  | some lanes => leBytes 1 1 ++ leBytes 1 lanes.length ++ lanes.flatMap (leBytes 1)

/-- The field bytes of a request (11.3). -/
def Request.fields : Request → List Byte
  | .setMotion r => leBytes 2 r.n ++ leBytes 2 r.d ++ leBytes 1 (codeOfBool r.invert) ++ leBytes 4 r.spacing ++ leBytes 2 r.stopTime
  | .setRepeat r => leBytes 4 r.length ++ leBytes 1 (codeOfBool r.tracking) ++ leBytes 1 (codeOfEdge r.edge) ++ leBytes 4 r.m
      ++ leBytes 2 r.wc ++ leBytes 1 r.cmax ++ leBytes 1 r.qacq ++ leBytes 1 r.kmiss
  | .setLane f => leBytes 1 f.lane ++ leBytes 1 (codeOfMode f.mode) ++ leBytes 1 (codeOfSource f.source) ++ leBytes 2 f.width
      ++ leBytes 2 f.base ++ leBytes 2 f.offset ++ leBytes 1 f.fill ++ leBytes 2 f.flat ++ leBytes 1 (codeOfBool f.correction)
  | .laneInfo k => leBytes 1 k
  | .pageSeek e => leBytes 2 e
  | .pageFill es => leBytes 1 es.length ++ es.flatMap entryBytes
  | .pageCommit k n => leBytes 1 k ++ leBytes 1 n
  | .tableRead k e => leBytes 1 k ++ leBytes 2 e
  | .levelStart f => leBytes 1 f.reference ++ leBytes 2 f.threshold ++ leBytes 4 f.span ++ leBytes 1 (codeOfBool f.apply)
      ++ leBytes 1 f.lanes.length ++ f.lanes.flatMap probeBytes
  | .windowOpen f => leBytes 4 f.c0 ++ leBytes 4 f.c1 ++ leBytes 4 f.l0 ++ leBytes 1 (codeOfBool f.l1.isSome) ++ leBytes 4 (f.l1.getD 0)
      ++ leBytes 2 f.stride ++ leBytes 2 f.phase ++ leBytes 1 (codeOfClass f.cls) ++ laneSetBytes f.lanes
  | .windowClose id => leBytes 1 id
  | .windowReturn id => leBytes 1 id
  | .windowInfo id => leBytes 1 id
  | .grant n => leBytes 1 n
  | .setStore f => leBytes 2 f.reserve ++ leBytes 2 f.stallTimeout ++ leBytes 1 (codeOfPort f.standby)
  | .markOut f => leBytes 1 (codeOfOutput f.output) ++ leBytes 4 f.rn.toNat ++ leBytes 4 f.irl ++ leBytes 4 f.width
  | .setMarkerOut f => leBytes 1 (codeOfOutput f.output) ++ leBytes 4 f.distance ++ leBytes 1 (codeOfMarkerMode f.mode)
      ++ leBytes 1 (codeOfPolarity f.polarity)
  | .notices set kinds => leBytes 1 (codeOfSelector set) ++ leBytes 1 kinds.length ++ kinds.flatMap fun k => leBytes 1 (noticeCode k)
  | .repeatRestart | .snapshot | .log | .pageClear | .levelAbort | .levelResults | .claim | .release | .status | .restart => []

/-- The request frame of a request under a tag. -/
def Request.frame (r : Request) (tag : Byte) : RequestFrame :=
  { kind := BitVec.ofNat 8 r.kind.code, tag := tag, fields := r.fields }

/-- Every field of a request fits the bytes its layout gives it. -/
def Request.fits : Request → Prop
  | .setMotion r => r.n < 65536 ∧ r.d < 65536 ∧ r.spacing < 4294967296 ∧ r.stopTime < 65536
  | .setRepeat r => r.length < 4294967296 ∧ r.m < 4294967296 ∧ r.wc < 65536 ∧ r.cmax < 256 ∧ r.qacq < 256 ∧ r.kmiss < 256
  | .setLane f => f.lane < 256 ∧ f.width < 65536 ∧ f.base < 65536 ∧ f.offset < 65536 ∧ f.fill < 256 ∧ f.flat < 65536
  | .laneInfo k => k < 256
  | .pageSeek e => e < 65536
  | .pageFill es => es.length < 256 ∧ ∀ c ∈ es, c.dark < 65536 ∧ c.gain < 65536
  | .pageCommit k n => k < 256 ∧ n < 256
  | .tableRead k e => k < 256 ∧ e < 65536
  | .levelStart f => f.reference < 256 ∧ f.threshold < 65536 ∧ f.span < 4294967296 ∧ f.lanes.length < 256
      ∧ ∀ x ∈ f.lanes, x.1 < 256 ∧ x.2 < 65536
  | .windowOpen f => f.c0 < 4294967296 ∧ f.c1 < 4294967296 ∧ f.l0 < 4294967296 ∧ (∀ l ∈ f.l1, l < 4294967296)
      ∧ f.stride < 65536 ∧ f.phase < 65536 ∧ ∀ ks ∈ f.lanes, ks.length < 256 ∧ ∀ k ∈ ks, k < 256
  | .windowClose id => id < 256
  | .windowReturn id => id < 256
  | .windowInfo id => id < 256
  | .grant n => n < 256
  | .setStore f => f.reserve < 65536 ∧ f.stallTimeout < 65536
  | .markOut f => f.irl < 4294967296 ∧ f.width < 4294967296
  | .setMarkerOut f => f.distance < 4294967296
  | .notices _ kinds => kinds.length < 256
  | .repeatRestart | .snapshot | .log | .pageClear | .levelAbort | .levelResults | .claim | .release | .status | .restart => True

/-! ### Ranges (the owning rules) -/

/-- SET_MOTION's checks (R15). -/
def MotionSettings.inRange (r : MotionSettings) : Bool :=
  decide (1 ≤ r.n ∧ r.n ≤ 65535 ∧ 1 ≤ r.d ∧ r.d ≤ 65535 ∧ r.n ≤ r.d ∧ 200 ≤ r.spacing ∧ r.spacing ≤ 100000
    ∧ 10 ≤ r.stopTime ∧ r.stopTime ≤ 10000)

/-- SET_REPEAT's checks (R36): the ranges of the table of 2.7 and the two constraints. -/
def RepeatSettings.inRange (r : RepeatSettings) : Bool :=
  decide (131072 ≤ r.length ∧ r.length ≤ 51200000 ∧ r.m ≤ r.length / 256 - 1 ∧ 1 ≤ r.wc ∧ r.wc ≤ 4095 ∧ r.cmax ≤ 255
    ∧ 1 ≤ r.qacq ∧ r.qacq ≤ 4 ∧ 1 ≤ r.kmiss ∧ r.kmiss ≤ 15
    ∧ r.cmax ≤ r.wc ∧ r.wc ≤ r.m ∧ r.m + r.wc + r.cmax ≤ r.length / 256 - 2)

/-- SET_LANE's checks (R46), the lane number apart. -/
def LaneFields.inRange (f : LaneFields) : Bool :=
  decide (512 ≤ f.width ∧ f.width ≤ 8192 ∧ f.width % 64 = 0 ∧ f.base ≤ 65535 ∧ f.base + f.width ≤ 65536
    ∧ f.offset ≤ 4095 ∧ f.fill ≤ 255 ∧ f.flat ≤ 4095)

/-- PAGE_FILL's checks (R76). -/
def fillInRange (es : List Correction) : Bool :=
  decide (1 ≤ es.length ∧ es.length ≤ 32) && es.all fun c => decide (c.dark ≤ 4095 ∧ c.gain ≤ 16383)

/-- A lane set as carried, given by number, with its lanes distinct and at most 7 (R82, R115). -/
def lanesValid (ks : List Nat) : Bool :=
  decide (1 ≤ ks.length ∧ ks.length ≤ 8 ∧ ks.Nodup) && ks.all fun k => decide (k ≤ 7)

/-- LEVEL_START's checks (R82) against the lanes' widths in force. -/
def LevelFields.inRange (f : LevelFields) (widthOf : Lane → Nat) : Bool :=
  lanesValid (f.lanes.map (·.1))
  && decide (f.reference ≤ 7 ∧ f.reference ∈ f.lanes.map (·.1) ∧ f.threshold ≤ 255 ∧ 1 ≤ f.span ∧ f.span ≤ 65535)
  && f.lanes.all fun x => match laneOfNumber x.1 with
    | none => false
    | some k => decide (x.2 < widthOf k)

/-- WINDOW_OPEN's checks (R115). -/
def WindowFields.inRange (f : WindowFields) : Bool :=
  (match f.lanes with | none => true | some ks => lanesValid ks)
  && decide (f.c0 ≤ 65535 ∧ f.c1 ≤ 65535 ∧ f.c0 ≤ f.c1 ∧ f.l0 ≤ 262143)
  && (match f.l1 with | none => true | some l1 => decide (l1 ≤ 262143 ∧ f.l0 ≤ l1))
  && decide (1 ≤ f.stride ∧ f.stride ≤ 255 ∧ f.phase < f.stride)

/-- SET_STORE's checks (R149). -/
def StoreFields.inRange (f : StoreFields) : Bool :=
  decide (f.reserve ≤ 1024 ∧ 1 ≤ f.stallTimeout ∧ f.stallTimeout ≤ 1000)

/-- MARK_OUT's own checks (R153). -/
def MarkFields.inRange (f : MarkFields) : Bool := decide (1 ≤ f.width ∧ f.width ≤ 65535 ∧ f.irl ≤ 262143)

/-- SET_MARKER_OUT's checks (R160). -/
def MarkerFields.inRange (f : MarkerFields) : Bool := decide (f.distance ≤ 1000000)

/-- A lane set given by numbers, as a set of lanes. -/
def laneSetOf (ks : List Nat) : PerLane Bool :=
  (PerLane.all ()).map fun k _ => decide (laneNumber k ∈ ks)

end Sys2Proof.Machine
end

