-- ==== Sys2Proof/Machine/Requests.lean ====
section
/-!
DEFINITION. The taking of a request by a port (R164, R165): its conditions, the claim (R169), the reading of the fields (R178)
and the response that is made.
-/

namespace Sys2Proof.Machine

/-- A response code with its indications and data (11.4). -/
structure Answer where
  code : ResponseCode
  merged : Bool := false
  overflow : Bool := false
  data : ResponseData := .nothing
  deriving DecidableEq, Repr

/-- The response to a frame, its kind and tag echoed (11.4). -/
def Answer.response (a : Answer) (f : RequestFrame) : Response :=
  { kind := f.kind, tag := f.tag, code := a.code, merged := a.merged, overflow := a.overflow, data := a.data }

/-- A response joins the waiting responses of a port. -/
def respond (p : Port) (f : RequestFrame) (a : Answer) (s : State) : State :=
  s.setPort p { s.port p with responses := (s.port p).responses ++ [a.response f] }

/-- Whether a port takes requests (R164): its link is up, fewer than 8 responses wait, no RESTART is in progress from it. -/
def State.takesRequests (s : State) (p : Port) : Bool :=
  (s.port p).isUp && decide ((s.port p).responses.length < Config.takeLimit) && decide (s.shared.restart ≠ some p)

/-- A refusal: the code alone, nothing changed. -/
def refuse (c : ResponseCode) (s : State) : State × Answer := (s, { code := c })

/-- The event "port p takes the request at the head of its queue", for a kind of request; `none` is a kind that is not known.
The request leaves the queue, the owning block acts, one response is made (R165). Where the head is of another kind or the
port takes no request, the event does not occur (log 2). -/
def takeRequest (p : Port) (kind : Option RequestKind) (act : RequestFrame → State → State × Answer) (s : State) :
    Host.Outcome State Fault Refusal :=
  match (s.port p).requests with
  | [] => .next s
  | f :: rest =>
    if f.requestKind = kind ∧ s.takesRequests p = true then
      let r := act f (s.setPort p { s.port p with requests := rest })
      .next (settle (respond p f r.2 r.1))
    else .next s

/-- A claim request: NOT_HOLDER from a port that does not hold the claim (R165 step 2, R169). -/
def asHolder (p : Port) (act : RequestFrame → State → State × Answer) (f : RequestFrame) (s : State) : State × Answer :=
  if s.shared.holder = some p then act f s else refuse .notHolder s

/-- A request whose fields are read by its layout: RANGE where they do not fit it (R178). -/
def withFields {α : Type} (read : List Byte → Option α) (act : α → State → State × Answer) (f : RequestFrame) (s : State) :
    State × Answer :=
  match read f.fields with
  | none => refuse .range s
  | some x => act x s

/-- A request answered from the state alone, which it leaves as it is. -/
def inform (a : State → Answer) (s : State) : State × Answer := (s, a s)

end Sys2Proof.Machine
end

