-- ==== Sys2Proof/Machine/CorrectionCommands.lean ====
section
/-!
DEFINITION. The commands of the Correction Block (4.4 to 4.6).
-/

namespace Sys2Proof.Machine

/-- A correction request that is answered BUSY while a commit is pending, before any check of its fields (R73, R77). -/
def unlessCommit (act : RequestFrame → State → State × Answer) (f : RequestFrame) (s : State) : State × Answer :=
  if s.cb.commit.isSome then refuse .busy s else act f s

/-- PAGE_CLEAR taken (R74). -/
def pageClear (_ : Unit) (s : State) : State × Answer :=
  (s.withCb { s.cb with staging := [], pointer := 0, endWritten := false }, { code := .done })

/-- PAGE_CLEAR (R74). -/
def execPageClear (p : Port) (s : State) : Host.Outcome State Fault Refusal :=
  takeRequest p (some .pageClear) (asHolder p (unlessCommit (withFields readNothing pageClear))) s

/-- PAGE_SEEK taken (R75). -/
def pageSeek (e : Nat) (s : State) : State × Answer :=
  if e ≤ 255 then (s.withCb { s.cb with pointer := e, endWritten := false }, { code := .done }) else refuse .range s

/-- PAGE_SEEK (R75). -/
def execPageSeek (p : Port) (s : State) : Host.Outcome State Fault Refusal :=
  takeRequest p (some .pageSeek) (asHolder p (unlessCommit (withFields readSeek pageSeek))) s

/-- One entry written at the staging pointer (R76). -/
def fillEntry (cb : CorrectionBlock) (c : Correction) : CorrectionBlock :=
  let staging := tableSplice cb.staging cb.pointer 1 (tableRun Correction.unity cb.pointer [c])
  if cb.pointer < 255 then { cb with staging := staging, pointer := cb.pointer + 1 }
  else { cb with staging := staging, endWritten := true }

/-- The entries of a PAGE_FILL written in order; the request is marked overflowed by an entry written with the end-written flag
already set (R76). -/
def fillEntries : List Correction → CorrectionBlock → Bool → CorrectionBlock × Bool
  | [], cb, marked => (cb, marked)
  | c :: cs, cb, marked => fillEntries cs (fillEntry cb c) (marked || cb.endWritten)

/-- PAGE_FILL taken (R76). -/
def pageFill (es : List Correction) (s : State) : State × Answer :=
  if fillInRange es then
    let r := fillEntries es s.cb false
    (s.withCb r.1, { code := .done, overflow := r.2 })
  else refuse .range s

/-- PAGE_FILL (R76). -/
def execPageFill (p : Port) (s : State) : Host.Outcome State Fault Refusal :=
  takeRequest p (some .pageFill) (asHolder p (unlessCommit (withFields readFill pageFill))) s

/-- PAGE_COMMIT taken (R77): pending, and completed at once for a lane that is OFF or in FAULT (R78). -/
def pageCommit (p : Port) (x : Nat × Nat) (s : State) : State × Answer :=
  match laneOfNumber x.1 with
  | none => refuse .range s
  | some k =>
    if x.2 ≤ 31 then
      let s := s.withCb { s.cb with commit := some { lane := k, page := x.2, port := p } }
      (match (s.lane k).state with
        | .active _ => s
        | .off => completeCommit k s
        | .fault _ => completeCommit k s, { code := .done })
    else refuse .range s

/-- PAGE_COMMIT (R77). -/
def execPageCommit (p : Port) (s : State) : Host.Outcome State Fault Refusal :=
  takeRequest p (some .pageCommit) (asHolder p (unlessCommit (withFields readPair (pageCommit p)))) s

/-- TABLE_READ's answer (R80). -/
def tableRead (x : Nat × Nat) (s : State) : Answer :=
  match laneOfNumber x.1 with
  | none => { code := .range }
  | some k =>
    if x.2 < Config.tableEntries then { code := .done, data := .correction (correctionAt (s.cb.tables.get k) x.2) }
    else { code := .range }

/-- TABLE_READ (R80). -/
def execTableRead (p : Port) (s : State) : Host.Outcome State Fault Refusal :=
  takeRequest p (some .tableRead) (withFields readTable fun x => inform (tableRead x)) s

end Sys2Proof.Machine
end

