-- ==== Sys2Proof/Machine/Failover.lean ====
section
/-!
DEFINITION. The abort of a strip at link loss (R140) and the failure handling of a port (8.8).
-/

namespace Sys2Proof.Machine

/-- The loss of an entry counted on its window, if that is OPEN: GAP pending and the dropped counter (R140, R146, R147). -/
def markLost (id : Nat) (s : State) : State :=
  match s.window id with
  | none => s
  | some w => if w.closing.isNone then putWindow id { w with gap := true, dropped := w.dropped + 1 } s else s

/-- The port's entries dropped counter incremented. -/
def countDropped (p : Port) (s : State) : State := s.setPort p { s.port p with dropped := (s.port p).dropped + 1 }

/-- An entry of a failed port released and counted as lost (R146, R147). -/
def loseEntry (p : Port) (s : State) (e : Entry) : State := countDropped p (markLost e.window (releaseSlot e.slot s))

/-- The abort of the strip in flight at a port whose link is lost (R140): the entry released; a CLOSING window's strips in flight
fall; an OPEN window and the port count the loss. -/
def abortStrip (p : Port) (s : State) : State :=
  match (s.port p).outbound with
  | some (.strip e _) =>
    let s := releaseSlot e.slot s
    match s.window e.window with
    | none => s
    | some w => if w.closing.isNone then countDropped p (markLost e.window s) else closingStripEnd e.window s
  | some (.response _) => s
  | some (.notice _) => s
  | none => s

/-- The owner of every OPEN window of the failed port changed to the standby (R145). -/
def adoptWindows (p st : Port) (s : State) : State :=
  s.withWindows (s.windows.map fun x =>
    if x.2.owner = p ∧ x.2.closing = none then (x.1, { x.2 with owner := st, adopted := decide (st ≠ x.2.origin) }) else x)

/-- One queue of the failed port moved to the standby; what does not fit is released from the newest on (R146). -/
def moveQueue (p st : Port) (cls : DeliveryClass) (s : State) : State :=
  let q := (s.port p).queue cls
  let room := Config.queueCapacity - ((s.port st).queue cls).length
  let s := s.setPort p ((s.port p).setQueue cls [])
  let s := s.setPort st ((s.port st).setQueue cls ((s.port st).queue cls ++ q.take room))
  (q.drop room).reverse.foldl (loseEntry p) s

/-- Case 1: the standby adopts (R145, R146). -/
def adoptAll (p st : Port) (s : State) : State :=
  raiseAt st .adopt (moveQueue p st .sheddable (moveQueue p st .essential (adoptWindows p st s)))

/-- The ids of the OPEN windows owned by a port, ascending. -/
def ownedWindows (p : Port) (s : State) : List Nat :=
  (s.windows.filter fun x => decide (x.2.owner = p ∧ x.2.closing = none)).map (·.1)

/-- Case 2: every queued entry released (R147); at a link loss every OPEN window of the port closed (R120). -/
def releaseAll (p : Port) (linkLoss : Bool) (s : State) : State :=
  let q := (s.port p).essential ++ (s.port p).sheddable
  let s := q.foldl (loseEntry p) (s.setPort p { s.port p with essential := [], sheddable := [] })
  if linkLoss then (ownedWindows p s).foldl (fun s id => closeWindow id s) s else s

/-- The standby that adopts at a failure of port p: named, not p itself, and LIVE (R144). -/
def adopter (p : Port) (s : State) : Option Port :=
  match s.shared.standby with
  | none => none
  | some st => if st ≠ p ∧ (s.port st).isLive = true then some st else none

/-- The failure handling of a port (R144). -/
def failPort (p : Port) (linkLoss : Bool) (s : State) : State :=
  match adopter p s with
  | some st => adoptAll p st s
  | none => releaseAll p linkLoss s

end Sys2Proof.Machine
end

