-- ==== Sys2Proof/Machine/Markers.lean ====
section
/-!
DEFINITION. The Marker Unit (chapter 9): target conversion, the queue, firing, the outputs and their pins.
-/

namespace Sys2Proof.Machine

/-! ### The queue (9.2, 9.3) -/

/-- Whether an entry is for an output and a target. -/
def MarkerEntry.isFor (e : MarkerEntry) (o : Output) (t : Line) : Bool := decide (e.output = o) && decide (e.target = t)

/-- A request merged into the entry of the same output and target (R156). -/
def mergeMarker (o : Output) (t : Line) (width : Nat) (p : Port) (q : List MarkerEntry) : List MarkerEntry :=
  q.map fun e => if e.isFor o t then { e with width := max e.width width, requesters := e.requesters.set p true } else e

/-- A new entry after every entry whose target is at or before its own and before every entry whose target is after it (R156). -/
def insertMarker (e : MarkerEntry) (q : List MarkerEntry) : List MarkerEntry :=
  q.takeWhile (fun x => atOrBefore x.target e.target) ++ e :: q.dropWhile (fun x => atOrBefore x.target e.target)

/-- The target of an in-repeat line of a log entry for an output at a distance, modulo 2^32 (R154). -/
def markerTarget (e : LogEntry) (irl distance : Nat) : Line := e.start + BitVec.ofNat 32 (irl - e.firstIrl) + BitVec.ofNat 32 distance

/-! ### The outputs (9.5) -/

/-- The level on the output's pin: true is high (9.5). -/
def MarkerOutput.pinLevel (o : MarkerOutput) : Bool :=
  match o.polarity with
  | .activeHigh => o.active
  | .activeLow => !o.active

/-- The pending mode and polarity applied at a firing, if present (R157 step 1, R160). -/
def MarkerOutput.applyPending (o : MarkerOutput) : MarkerOutput :=
  match o.pendingMode with
  | none => o
  | some m => { o with mode := m.1, polarity := m.2, pendingMode := none }

/-- A firing in PULSE mode at a time (R158): active, the pulse end the later of the present one and time + width. -/
def MarkerOutput.pulse (o : MarkerOutput) (now width : Nat) : MarkerOutput :=
  let due := now + width * Config.unitsPerUs
  { o with active := true, pulseEnd := some (match o.pulseEnd with | none => due | some t => max t due) }

/-- A firing in TOGGLE mode (R159): the state inverted, a pulse end made absent. -/
def MarkerOutput.toggle (o : MarkerOutput) : MarkerOutput := { o with active := !o.active, pulseEnd := none }

/-- A firing on an output (R157 steps 1 and 2). -/
def MarkerOutput.fire (o : MarkerOutput) (now width : Nat) : MarkerOutput :=
  let o := o.applyPending
  match o.mode with
  | .pulse => o.pulse now width
  | .toggle => o.toggle

/-! ### Firing (9.4) -/

/-- One entry fired (R157): its output acts, each requester's fired counter counts, and MARKER is raised at each requester
that is LIVE or STALLED. -/
def fireEntry (s : State) (e : MarkerEntry) : State :=
  let m := s.mku
  raiseWhere (fun p c => e.requesters.get p && c.isUp) .marker (s.withMku { m with
    outputs := m.outputs.set e.output ((m.outputs.get e.output).fire s.now e.width)
    fired := m.fired.map fun p n => if e.requesters.get p then n + 1 else n })

/-- A due line at the Marker Unit (R157): every entry whose target is its WLN is removed and fired in queue order. -/
def markerDueLine (w : Line) (s : State) : State :=
  let due := s.mku.queue.filter fun e => decide (e.target = w)
  let s := s.withMku { s.mku with queue := s.mku.queue.filter fun e => decide (e.target ≠ w) }
  due.foldl fireEntry s

/-- The cancelled counters after every entry of a queue is given up (R162). -/
def cancelMarkers (q : List MarkerEntry) (cancelled : PerPort Counter) : PerPort Counter :=
  q.foldl (fun c e => c.map fun p n => if e.requesters.get p then n + 1 else n) cancelled

end Sys2Proof.Machine
end

