-- ==== Sys2Proof/Machine/Motion.lean ====
section
/-!
DEFINITION. The Motion Unit (chapter 1): encoder counts, the line divider, backtrack, due lines, the trigger gate.
-/

namespace Sys2Proof.Machine

/-! ### Encoder inputs (1.2) -/

/-- The forward next state of the quadrature cycle (1.2). -/
def forwardInputs (e : EncInputs) : EncInputs :=
  match e with
  | ⟨false, false⟩ => ⟨true, false⟩
  | ⟨true, false⟩ => ⟨true, true⟩
  | ⟨true, true⟩ => ⟨false, true⟩
  | ⟨false, true⟩ => ⟨false, false⟩

/-- The opposite state of the quadrature cycle: both inputs changed (1.2). -/
def oppositeInputs (e : EncInputs) : EncInputs := ⟨!e.a, !e.b⟩

/-! ### Due lines (1.5 to 1.8) -/

/-- The Motion Unit's own part of a due line (R7, R8, R13): WLN, speed gate count, stop timer, motion state. -/
def countDueLine (s : State) : State :=
  let m := s.mu
  let moved := s.withMu { m with
    wln := m.wln + 1
    gateCount := m.gateCount + 1
    stopTimer := some (s.now + m.settings.stopTime * Config.unitsPerMs)
    motion := .moving }
  match m.motion with
  | .stopped => raiseUp .motion moved
  | .moving => moved

/-- The repeat-start flag set when the newest log entry starts at the due line (R9). -/
def markRepeatStart (w : Line) (s : State) : State :=
  if s.ru.newest.start = w then s.withMu { s.mu with repeatStart := true } else s

/-- A due line at the trigger gate: a trigger with its mark (R10), or a skipped line (R11). -/
def gateDueLine (w : Line) (s : State) : State :=
  match s.mu.gate with
  | none =>
    triggerLanes w s.mu.repeatStart (s.withMu { s.mu with
      gate := some (s.now + s.mu.settings.spacing), repeatStart := false })
  | some _ => raiseUp .skip (s.withMu { s.mu with skipped := s.mu.skipped + 1 })

/-- A due line (R8), handed on in the order of R8's table (log 10). -/
def dueLine (s : State) : State :=
  let s := countDueLine s
  let w := s.mu.wln
  gateDueLine w (levelSpan w (markerDueLine w (markRepeatStart w (repeatDueLine w s))))

/-! ### Encoder counts (1.2 to 1.4) -/

/-- A line step of a forward count (R4). -/
def lineStep (s : State) : State :=
  if 0 < s.mu.owed then s.withMu { s.mu with owed := s.mu.owed - 1 } else dueLine s

/-- A forward count (R3). -/
def forwardCount (s : State) : State :=
  let sum := s.mu.acc + s.mu.settings.n
  if s.mu.settings.d ≤ sum then lineStep (s.withMu { s.mu with acc := sum - s.mu.settings.d })
  else s.withMu { s.mu with acc := sum }

/-- A reverse line step (R5), at B = 4095 a reverse overrun (R6). -/
def reverseStep (s : State) : State :=
  if s.mu.owed < Config.owedMax then s.withMu { s.mu with owed := s.mu.owed + 1 }
  else overrunIndication (raiseUp .encoder (s.withMu { s.mu with overruns := s.mu.overruns + 1 }))

/-- A reverse count (R5). -/
def reverseCount (s : State) : State :=
  if s.mu.settings.n ≤ s.mu.acc then s.withMu { s.mu with acc := s.mu.acc - s.mu.settings.n }
  else reverseStep (s.withMu { s.mu with acc := s.mu.acc + s.mu.settings.d - s.mu.settings.n })

/-- A change of the encoder inputs (R1, R2); inputs that stay at the reference state are no change (log 2). -/
def encoderChange (inputs : EncInputs) (s : State) : State :=
  let old := s.mu.reference
  let s := s.withMu { s.mu with reference := inputs }
  if inputs = old then s
  else if inputs = oppositeInputs old then raiseUp .encoder (s.withMu { s.mu with encoderErrors := s.mu.encoderErrors + 1 })
  else if decide (inputs = forwardInputs old) != s.mu.settings.invert then forwardCount s
  else reverseCount s

end Sys2Proof.Machine
end

