-- ==== Sys2Proof/Machine/Reset.lean ====
section
/-!
DEFINITION. The two resets: power-on (0.8) and the reset of a RESTART (R176).
-/

namespace Sys2Proof.Machine

/-- Every block at its power-on values (R18, R44, R68, R81, R91, R112, R130, R151, R162, R176). The encoder levels at that
moment are given; link states stand as they are (R68, R151); slot contents are not cleared (R112); the model's clock runs on. -/
def powerOnReset (inputs : EncInputs) (s : State) : State :=
  { s with
    mu := MotionUnit.initial inputs s.now
    ru := RepeatUnit.initial
    lanes := s.lanes.map fun k l => LaneFrontEnd.initial k l.linkUp
    cb := CorrectionBlock.initial
    le := .idle
    bsc := BandStore.initial
    windows := []
    ports := s.ports.map fun _ c => ConsumerPort.initial .down c.linkUp
    shared := SharedRecord.initial
    mku := MarkerUnit.initial }

/-- Every block at its RESTART values (R176): as power-on, but a port whose link is up becomes LIVE (R151), the reference state is
the levels present, and the marker counters are kept after the cancellations are counted (R162). -/
def restartReset (s : State) : State :=
  { s with
    mu := MotionUnit.initial s.mu.reference s.now
    ru := RepeatUnit.initial
    lanes := s.lanes.map fun k l => LaneFrontEnd.initial k l.linkUp
    cb := CorrectionBlock.initial
    le := .idle
    bsc := BandStore.initial
    windows := []
    ports := s.ports.map fun _ c => ConsumerPort.initial (if c.linkUp then .live else .down) c.linkUp
    shared := SharedRecord.initial
    mku := { MarkerUnit.initial with
      fired := s.mku.fired, cancelled := cancelMarkers s.mku.queue s.mku.cancelled } }

end Sys2Proof.Machine
end

