-- ==== Sys2Proof/Machine/DeliveryCommands.lean ====
section
/-!
DEFINITION. The commands of the data side of the Consumer Ports (chapter 8), and SET_STORE.
-/

namespace Sys2Proof.Machine

/-- SET_STORE's record taken (R149): pressure is judged again where the reserve changes (R109). -/
def setStore (f : StoreFields) (s : State) : State × Answer :=
  if f.inRange then
    let changed := f.reserve ≠ s.bsc.reserve
    let s := (s.withShared { s.shared with stallTimeout := f.stallTimeout, standby := f.standby }).withBsc
      { s.bsc with reserve := f.reserve }
    (if changed then judgePressure s else s, { code := .done })
  else refuse .range s

/-- SET_STORE (R149, R109). -/
def execSetStore (p : Port) (s : State) : Host.Outcome State Fault Refusal :=
  takeRequest p (some .setStore) (asHolder p (withFields readStore setStore)) s

/-- STEERING_LINK_UP (R132, R174): a DOWN port becomes LIVE with the values R132 names; its counters are kept. A port whose link is
up already takes no such event (log 2). -/
def execSteeringLinkUp (p : Port) (s : State) : Host.Outcome State Fault Refusal :=
  let c := s.port p
  match c.state with
  | .down => .next (s.setPort p { ConsumerPort.initial .live true with sent := c.sent, dropped := c.dropped, errors := c.errors })
  | .live => .next s
  | .stalled => .next s

/-- GRANT taken (R133), with the return from STALLED (R143). -/
def grantCredit (p : Port) (n : Nat) (s : State) : State × Answer :=
  if 1 ≤ n ∧ n ≤ Config.creditMax then
    let credit := min Config.creditMax ((s.port p).credit + n)
    (s.setPort p { s.port p with state := .live, credit := credit }, { code := .done, data := .credit credit })
  else refuse .range s

/-- GRANT (R133, R143); only a port whose link is up takes requests, so the port is LIVE or STALLED. -/
def execGrant (p : Port) (s : State) : Host.Outcome State Fault Refusal :=
  takeRequest p (some .grant) (withFields readByte (grantCredit p)) s

/-- Whether a response is the DONE answer of a RESTART (R175). -/
def Response.isRestartDone (r : Response) : Bool := decide (r.kind.toNat = RequestKind.restart.code) && r.code == .done

/-- FRAME_COMPLETION (R135): a response or notice frame is sent. The frame with the DONE of a RESTART in progress from the port
applies the reset, before the arbiter chooses another frame (R175). -/
def execFrameCompletion (p : Port) (s : State) : Host.Outcome State Fault Refusal :=
  match (s.port p).outbound with
  | some (.response r) =>
    if s.shared.restart = some p ∧ r.isRestartDone = true then .next (restartReset s)
    else .next (settle (s.setPort p { s.port p with outbound := none }))
  | some (.notice _) => .next (settle (s.setPort p { s.port p with outbound := none }))
  | some (.strip _ _) => .next s
  | none => .next s

/-- STRIP_COMPLETION (R139): the entry is released, a CLOSING window's strips in flight fall (R119), the arbiter chooses. -/
def execStripCompletion (p : Port) (s : State) : Host.Outcome State Fault Refusal :=
  match (s.port p).outbound with
  | some (.strip e _) =>
    .next (settle (closingStripEnd e.window (releaseSlot e.slot (s.setPort p { s.port p with outbound := none }))))
  | some (.response _) => .next s
  | some (.notice _) => .next s
  | none => .next s

/-- STALL_TIMER_EXPIRY (R142): a LIVE port whose stall timer runs goes STALLED, STALL is raised at it, and its failure is handled. -/
def execStallTimerExpiry (p : Port) (s : State) : Host.Outcome State Fault Refusal :=
  match (s.port p).state, (s.port p).stall with
  | .live, some t =>
    .next (settle (failPort p false (raiseAt p .stall
      ((s.clockAt t).setPort p { s.port p with state := .stalled, stall := none }))))
  | _, _ => .next s

/-- What a link loss discards at once (R148, R140): the link is down, the timer stopped, a strip aborted, the waiting frames gone. -/
def cutLink (p : Port) (s : State) : State :=
  let s := abortStrip p (s.setPort p { s.port p with linkUp := false, stall := none })
  s.setPort p { s.port p with outbound := none, responses := [], notice := none }

/-- What a link loss leaves at the port after the failure handling (R148, R174): DOWN with credit 0, the request side empty. -/
def downPort (c : ConsumerPort) : ConsumerPort :=
  { c with state := .down, credit := 0, requests := [], responses := [], notice := none, pendingSet := 0, mask := 0 }

/-- The claim given up by a port that goes DOWN, with CLAIM raised at every other LIVE port (R174). -/
def dropClaim (p : Port) (s : State) : State :=
  if s.shared.holder = some p then raiseOthers p .claim (s.withShared { s.shared with holder := none }) else s

/-- STEERING_LINK_LOSS (R148, R140, R144, R174); with a RESTART in progress from the port the reset takes its place (R175). -/
def execSteeringLinkLoss (p : Port) (s : State) : Host.Outcome State Fault Refusal :=
  match (s.port p).state with
  | .down => .next s
  | .live | .stalled =>
    if s.shared.restart = some p then .next (restartReset (s.setPort p { s.port p with linkUp := false }))
    else
      let s := failPort p true (cutLink p s)
      .next (settle (dropClaim p (s.setPort p (downPort (s.port p)))))

end Sys2Proof.Machine
end

