-- ==== Sys2Proof/Machine/LaneCommands.lean ====
section
/-!
DEFINITION. The commands of the Lane Front Ends (chapter 3).
-/

namespace Sys2Proof.Machine

/-- The four pending items made present with a record's values (R47). -/
def LaneFrontEnd.withItems (l : LaneFrontEnd) (f : LaneFields) : LaneFrontEnd :=
  { l with
    pendingMode := some (f.mode, f.source)
    pendingOffset := some f.offset
    pendingWidth := some (f.width, f.base)
    pendingImmediate := some { fill := BitVec.ofNat 8 f.fill, flat := BitVec.ofNat 12 f.flat, correction := f.correction } }

/-- SET_LANE's record taken (R46, R47). -/
def setLane (f : LaneFields) (s : State) : State × Answer :=
  match laneOfNumber f.lane with
  | none => refuse .range s
  | some k =>
    if f.inRange then (updateLane k (fun l => l.withItems f) s, { code := .done }) else refuse .range s

/-- SET_LANE (R46, R47). -/
def execSetLane (p : Port) (s : State) : Host.Outcome State Fault Refusal :=
  takeRequest p (some .setLane) (asHolder p (withFields readLane setLane)) s

/-- LINE_ARRIVAL (R57, R58). -/
def execLineArrival (k : Lane) (frame : LineFrame) (s : State) : Host.Outcome State Fault Refusal :=
  .next (settle (arriveLine k frame s))

/-- LANE_LINK_LOSS (R65). -/
def execLaneLinkLoss (k : Lane) (s : State) : Host.Outcome State Fault Refusal := .next (settle (loseLaneLink k s))

/-- LANE_LINK_RETURN (R66). -/
def execLaneLinkReturn (k : Lane) (s : State) : Host.Outcome State Fault Refusal := .next (settle (returnLaneLink k s))

/-- LANE_INFO's answer (R67). -/
def laneInfo (n : Nat) (s : State) : Answer :=
  match laneOfNumber n with
  | none => { code := .range }
  | some k => { code := .done, data := .laneInfo k (s.lane k) }

/-- LANE_INFO (R67). -/
def execLaneInfo (p : Port) (s : State) : Host.Outcome State Fault Refusal :=
  takeRequest p (some .laneInfo) (withFields readByte fun n => inform (laneInfo n)) s

end Sys2Proof.Machine
end

