-- ==== Sys2Proof/Machine/LevelingCommands.lean ====
section
/-!
DEFINITION. The commands of the Leveling Engine (chapter 5).
-/

namespace Sys2Proof.Machine

/-- Whether a search is in progress. -/
def LevelingEngine.isSearching : LevelingEngine → Bool
  | .searching _ => true
  | .idle => false
  | .done _ => false

/-- LEVEL_START is answered BUSY while the engine is SEARCHING, before any check of its fields (R82). -/
def unlessSearching (act : RequestFrame → State → State × Answer) (f : RequestFrame) (s : State) : State × Answer :=
  if s.le.isSearching then refuse .busy s else act f s

/-- The search record of a lane at the start of a search (R83): WAITING in RUN, NOT_RUNNING otherwise. -/
def startRecord (l : LaneFrontEnd) (probe : Nat) : SearchRecord :=
  { probe := probe, status := if l.state = .active .run then .waiting else .notRunning, previous := none, edge := none }

/-- The search that a request starts (R83). -/
def startSearch (p : Port) (reference : Lane) (f : LevelFields) (s : State) : Search :=
  { request := { reference := reference, threshold := f.threshold, span := f.span, apply := f.apply }
    port := p
    start := s.mu.wln
    records := s.lanes.map fun k l =>
      match f.lanes.find? fun x => decide (x.1 = laneNumber k) with
      | none => none
      | some x => some (startRecord l x.2) }

/-- LEVEL_START taken (R82, R83): with no lane WAITING the search ends at once by EDGES. -/
def levelStart (p : Port) (f : LevelFields) (s : State) : State × Answer :=
  match laneOfNumber f.reference with
  | none => refuse .range s
  | some ref =>
    if f.inRange (fun k => (s.lane k).width) then
      let x := startSearch p ref f s
      (if x.anyWaiting then s.withLe (.searching x) else endSearch x .edges s.mu.wln s, { code := .done })
    else refuse .range s

/-- LEVEL_START (R82, R83). -/
def execLevelStart (p : Port) (s : State) : Host.Outcome State Fault Refusal :=
  takeRequest p (some .levelStart) (asHolder p (unlessSearching (withFields readLevel (levelStart p)))) s

/-- SPAN_END (R86): the check of a due line at the current WLN (log 12). -/
def execSpanEnd (s : State) : Host.Outcome State Fault Refusal := .next (settle (levelSpan s.mu.wln s))

/-- LEVEL_ABORT taken (R89). -/
def levelAbort (_ : Unit) (s : State) : State × Answer :=
  match s.le with
  | .searching x => (endSearch x .abort s.mu.wln s, { code := .done })
  | .idle => refuse .state s
  | .done _ => refuse .state s

/-- LEVEL_ABORT (R89). -/
def execLevelAbort (p : Port) (s : State) : Host.Outcome State Fault Refusal :=
  takeRequest p (some .levelAbort) (asHolder p (withFields readNothing levelAbort)) s

/-- LEVEL_RESULTS (R90). -/
def execLevelResults (p : Port) (s : State) : Host.Outcome State Fault Refusal :=
  takeRequest p (some .levelResults)
    (withFields readNothing fun _ => inform fun s => { code := .done, data := .levelResults s.le }) s

end Sys2Proof.Machine
end

