-- ==== Sys2Proof/Machine/RepeatCommands.lean ====
section
/-!
DEFINITION. The commands of the Repeat Unit (chapter 2).
-/

namespace Sys2Proof.Machine

/-- CHAIN_EXPIRY (R30): the check of step 4 at the current WLN (log 12). -/
def execChainExpiry (s : State) : Host.Outcome State Fault Refusal := .next (chainExpiry s.mu.wln s)

/-- MARK_EDGE (R25): a mark sensor transition. -/
def execMarkEdge (edge : MarkDirection) (s : State) : Host.Outcome State Fault Refusal :=
  .next (settle (markTransition edge s))

/-- REPEAT_RESTART taken (R35). -/
def repeatRestart (_ : Unit) (s : State) : State × Answer :=
  let s := s.withRu { s.ru with restart := some .requested, chain := none }
  (goLock (if s.ru.settings.tracking then .hunt else .off) s, { code := .done })

/-- REPEAT_RESTART (R35). -/
def execRepeatRestart (p : Port) (s : State) : Host.Outcome State Fault Refusal :=
  takeRequest p (some .repeatRestart) (asHolder p (withFields readNothing repeatRestart)) s

/-- SET_REPEAT's record taken (R36, R37): stored as the pending repeat settings. -/
def setRepeat (r : RepeatSettings) (s : State) : State × Answer :=
  if r.inRange then (s.withRu { s.ru with pendingSettings := some r }, { code := .done }) else refuse .range s

/-- SET_REPEAT (R36, R37). -/
def execSetRepeat (p : Port) (s : State) : Host.Outcome State Fault Refusal :=
  takeRequest p (some .setRepeat) (asHolder p (withFields readRepeat setRepeat)) s

/-- The SNAPSHOT record at an instant (R41). -/
def State.snapshot (s : State) : SnapshotRecord :=
  { wln := s.mu.wln, rn := s.ru.newest.rn, irl := s.currentIrl, phaseFraction := s.ru.phase % 256, stretch := s.ru.stretch,
    lock := s.ru.lock, motion := s.mu.motion, speed := s.mu.speed, owed := s.mu.owed, restart := s.ru.restart,
    pendingSettings := s.ru.pendingSettings.isSome }

/-- SNAPSHOT (R41). -/
def execSnapshot (p : Port) (s : State) : Host.Outcome State Fault Refusal :=
  takeRequest p (some .snapshot)
    (withFields readNothing fun _ => inform fun s => { code := .done, data := .snapshot s.snapshot }) s

/-- LOG (R42): every entry of the repeat log, oldest first. -/
def execLog (p : Port) (s : State) : Host.Outcome State Fault Refusal :=
  takeRequest p (some .log) (withFields readNothing fun _ => inform fun s => { code := .done, data := .log s.ru.entries }) s

end Sys2Proof.Machine
end

