-- ==== Sys2Proof/Machine/LinkCommands.lean ====
section
/-!
DEFINITION. The commands of the request side of the Consumer Ports (chapter 10).
-/

namespace Sys2Proof.Machine

/-- The request error counter incremented. -/
def countRequestError (p : Port) (s : State) : State := s.setPort p { s.port p with errors := (s.port p).errors + 1 }

/-- An accepted frame (R164): it joins the request queue, or is answered QUEUE_FULL, or is discarded as an error. -/
def acceptFrame (p : Port) (f : RequestFrame) (s : State) : State :=
  let c := s.port p
  if c.requests.length < Config.requestCapacity then s.setPort p { c with requests := c.requests ++ [f] }
  else if c.responses.length < Config.responseCapacity then respond p f { code := .queueFull } s
  else countRequestError p s

/-- REQUEST_ARRIVAL (R163, R164, R177). No frame arrives at a DOWN port (R163, log 2). -/
def execRequestArrival (p : Port) (bytes : List Byte) (s : State) : Host.Outcome State Fault Refusal :=
  if (s.port p).isUp then
    match judgeFrame bytes with
    | none => .next (settle (countRequestError p s))
    | some f => .next (settle (acceptFrame p f s))
  else .next s

/-- BAD_KIND (R165 step 1): a request of a kind that is not known, whatever its body. -/
def execBadKind (p : Port) (s : State) : Host.Outcome State Fault Refusal :=
  takeRequest p none (fun _ => refuse .badKind) s

/-- CLAIM taken (R167). -/
def takeClaim (p : Port) (_ : Unit) (s : State) : State × Answer :=
  match s.shared.holder with
  | none => (raiseOthers p .claim (s.withShared { s.shared with holder := some p }), { code := .done })
  | some q => if q = p then (s, { code := .done }) else (s, { code := .held, data := .holder q })

/-- CLAIM (R167). -/
def execClaim (p : Port) (s : State) : Host.Outcome State Fault Refusal :=
  takeRequest p (some .claim) (withFields readNothing (takeClaim p)) s

/-- RELEASE taken (R168). -/
def releaseClaim (p : Port) (_ : Unit) (s : State) : State × Answer :=
  if s.shared.holder = some p then (raiseOthers p .claim (s.withShared { s.shared with holder := none }), { code := .done })
  else refuse .notHolder s

/-- RELEASE (R168). -/
def execRelease (p : Port) (s : State) : Host.Outcome State Fault Refusal :=
  takeRequest p (some .release) (withFields readNothing (releaseClaim p)) s

/-- NOTICES taken (R172). -/
def setNotices (p : Port) (x : Bool × List NoticeKind) (s : State) : State × Answer :=
  if 1 ≤ x.2.length ∧ x.2.length ≤ 13 then
    let mask := x.2.foldl (if x.1 then NoticeSet.add else NoticeSet.remove) (s.port p).mask
    (s.setPort p { s.port p with mask := mask }, { code := .done, data := .mask mask })
  else refuse .range s

/-- NOTICES (R172). -/
def execNotices (p : Port) (s : State) : Host.Outcome State Fault Refusal :=
  takeRequest p (some .notices) (withFields readNotices (setNotices p)) s

/-- The STATUS record of a port at an instant (R173); the STATUS itself has left the request queue (log 19). -/
def State.statusOf (s : State) (p : Port) : StatusRecord :=
  let c := s.port p
  { pendingSet := c.pendingSet, portState := c.state, credit := c.credit, essentialDepth := c.essential.length,
    sheddableDepth := c.sheddable.length, requestDepth := c.requests.length, holder := s.shared.holder, standby := s.shared.standby,
    wln := s.mu.wln, rn := s.ru.newest.rn, irl := s.currentIrl, lock := s.ru.lock, motion := s.mu.motion, speed := s.mu.speed,
    freeCount := s.bsc.free.length, pressure := s.bsc.pressure, skipped := s.mu.skipped, encoderErrors := s.mu.encoderErrors,
    overruns := s.mu.overruns, overrunLines := s.bsc.overrunLines, strays := s.ru.strays, requestErrors := c.errors,
    stripsSent := c.sent, entriesDropped := c.dropped, markersFired := s.mku.fired.get p, markersCancelled := s.mku.cancelled.get p }

/-- STATUS taken (R173): the record, then the pending set emptied. -/
def takeStatus (p : Port) (_ : Unit) (s : State) : State × Answer :=
  (s.setPort p { s.port p with pendingSet := 0 }, { code := .done, data := .status (s.statusOf p) })

/-- STATUS (R173). -/
def execStatus (p : Port) (s : State) : Host.Outcome State Fault Refusal :=
  takeRequest p (some .status) (withFields readNothing (takeStatus p)) s

/-- RESTART taken (R175): a RESTART is in progress from the port until the frame with this DONE completes. -/
def beginRestart (p : Port) (_ : Unit) (s : State) : State × Answer :=
  (s.withShared { s.shared with restart := some p }, { code := .done })

/-- RESTART (R175). -/
def execRestart (p : Port) (s : State) : Host.Outcome State Fault Refusal :=
  takeRequest p (some .restart) (asHolder p (withFields readNothing (beginRestart p))) s

end Sys2Proof.Machine
end

