-- ==== Sys2Proof/Machine/WindowCommands.lean ====
section
/-!
DEFINITION. The commands of the Window Matcher (7.3 to 7.5).
-/

namespace Sys2Proof.Machine

/-- The lowest id of a FREE window record (R116). -/
def State.freeWindow (s : State) : Option Nat :=
  (List.range Config.windowCount).find? fun id => (s.window id).isNone

/-- The record of a window at its opening (R116). -/
def WindowFields.opened (f : WindowFields) (p : Port) : Window :=
  { owner := p, origin := p, adopted := false, lanes := f.lanes.map laneSetOf, c0 := f.c0, c1 := f.c1, l0 := f.l0, l1 := f.l1,
    stride := f.stride, phase := f.phase, cls := f.cls, gap := false, sequence := 0, sent := 0, dropped := 0, closing := none }

/-- A request that is answered STATE from a port that is not LIVE, before any check of its fields (R115, R153). -/
def ifLive (p : Port) (act : RequestFrame → State → State × Answer) (f : RequestFrame) (s : State) : State × Answer :=
  if (s.port p).isLive then act f s else refuse .state s

/-- WINDOW_OPEN taken from a LIVE port (R115, R116). -/
def windowOpen (p : Port) (f : WindowFields) (s : State) : State × Answer :=
  if f.inRange then
    match s.freeWindow with
    | none => refuse .tableFull s
    | some id => (putWindow id (f.opened p) s, { code := .done, data := .windowId id })
  else refuse .range s

/-- WINDOW_OPEN (R115, R116). -/
def execWindowOpen (p : Port) (s : State) : Host.Outcome State Fault Refusal :=
  takeRequest p (some .windowOpen) (ifLive p (withFields readWindow (windowOpen p))) s

/-- The OPEN window that a port may act on as owner or origin; else the refusal of R117 and R121. -/
def entitledWindow (p : Port) (id : Nat) (s : State) : Except ResponseCode Window :=
  if id < Config.windowCount then
    match s.window id with
    | none => .error .unknown
    | some w => if w.closing = none ∧ (w.owner = p ∨ w.origin = p) then .ok w else .error .unknown
  else .error .range

/-- WINDOW_CLOSE taken (R117, R118). -/
def windowClose (p : Port) (id : Nat) (s : State) : State × Answer :=
  match entitledWindow p id s with
  | .error c => refuse c s
  | .ok _ => (closeWindow id s, { code := .done })

/-- WINDOW_CLOSE (R117, R118). -/
def execWindowClose (p : Port) (s : State) : Host.Outcome State Fault Refusal :=
  takeRequest p (some .windowClose) (withFields readByte (windowClose p)) s

/-- WINDOW_RETURN taken (R121). -/
def windowReturn (p : Port) (id : Nat) (s : State) : State × Answer :=
  match entitledWindow p id s with
  | .error c => refuse c s
  | .ok w =>
    if w.adopted = true ∧ (s.port w.origin).isLive = true then
      (putWindow id { w with owner := w.origin, adopted := false } s, { code := .done })
    else refuse .state s

/-- WINDOW_RETURN (R121). -/
def execWindowReturn (p : Port) (s : State) : Host.Outcome State Fault Refusal :=
  takeRequest p (some .windowReturn) (withFields readByte (windowReturn p)) s

/-- WINDOW_INFO's answer (R122). -/
def windowInfo (id : Nat) (s : State) : Answer :=
  if id < Config.windowCount then
    match s.window id with
    | none => { code := .unknown }
    | some w => { code := .done, data := .windowInfo id w }
  else { code := .range }

/-- WINDOW_INFO (R122). -/
def execWindowInfo (p : Port) (s : State) : Host.Outcome State Fault Refusal :=
  takeRequest p (some .windowInfo) (withFields readByte fun id => inform (windowInfo id)) s

end Sys2Proof.Machine
end

