-- ==== Sys2Proof/Machine/MarkerCommands.lean ====
section
/-!
DEFINITION. The commands of the Marker Unit (chapter 9).
-/

namespace Sys2Proof.Machine

/-- A marker of a target placed (R156): merged, refused FULL, or inserted. -/
def placeMarker (p : Port) (o : Output) (t : Line) (width : Nat) (s : State) : State × Answer :=
  let q := s.mku.queue
  if q.any fun e => e.isFor o t then
    (s.withMku { s.mku with queue := mergeMarker o t width p q }, { code := .done, merged := true })
  else if q.length < Config.markerCapacity then
    let e : MarkerEntry := { output := o, target := t, width := width, requesters := (PerPort.all false).set p true }
    (s.withMku { s.mku with queue := insertMarker e q }, { code := .done })
  else refuse .full s

/-- MARK_OUT taken from a LIVE port (R153 to R156); the first check that fails decides the answer. -/
def markOut (p : Port) (f : MarkFields) (s : State) : State × Answer :=
  if f.inRange then
    match s.ru.query f.rn with
    | none => refuse .unknownRepeat s
    | some e =>
      if f.irl < e.firstIrl then refuse .range s
      else
        let beyond := match e.length with
          | none => false
          | some n => decide (e.firstIrl + n ≤ f.irl)
        if beyond then refuse .range s
        else
          let t := markerTarget e f.irl (s.mku.outputs.get f.output).distance
          if lineDiff t s.mu.wln ≤ 0 then refuse .late s else placeMarker p f.output t f.width s
  else refuse .range s

/-- MARK_OUT (R153 to R156). -/
def execMarkOut (p : Port) (s : State) : Host.Outcome State Fault Refusal :=
  takeRequest p (some .markOut) (ifLive p (withFields readMark (markOut p))) s

/-- SET_MARKER_OUT's record taken (R160): the distance at once, mode and polarity pending. -/
def setMarkerOut (f : MarkerFields) (s : State) : State × Answer :=
  if f.inRange then
    let o := s.mku.outputs.get f.output
    let o := { o with distance := f.distance, pendingMode := some (f.mode, f.polarity) }
    (s.withMku { s.mku with outputs := s.mku.outputs.set f.output o }, { code := .done })
  else refuse .range s

/-- SET_MARKER_OUT (R160). -/
def execSetMarkerOut (p : Port) (s : State) : Host.Outcome State Fault Refusal :=
  takeRequest p (some .setMarkerOut) (asHolder p (withFields readMarker setMarkerOut)) s

/-- PULSE_END (R158): an output's pulse end is reached and it becomes inactive. -/
def execPulseEnd (o : Output) (s : State) : Host.Outcome State Fault Refusal :=
  let x := s.mku.outputs.get o
  match x.pulseEnd with
  | none => .next s
  | some t => .next ((s.clockAt t).withMku { s.mku with outputs := s.mku.outputs.set o { x with active := false, pulseEnd := none } })

end Sys2Proof.Machine
end

