-- ==== Sys2Proof/Machine/MotionCommands.lean ====
section
/-!
DEFINITION. The commands of the Motion Unit (chapter 1) and POWER_ON.
-/

namespace Sys2Proof.Machine

/-- POWER_ON (R18 and every chapter's reset values): the encoder inputs' levels become the reference state. -/
def execPowerOn (inputs : EncInputs) (s : State) : Host.Outcome State Fault Refusal := .next (powerOnReset inputs s)

/-- ENCODER_COUNT (R1 to R14): a change of the encoder inputs, with all that it brings about. -/
def execEncoderCount (inputs : EncInputs) (s : State) : Host.Outcome State Fault Refusal :=
  .next (settle (encoderChange inputs s))

/-- GATE_REOPEN (R11): a closed gate opens at its reopening time. -/
def execGateReopen (s : State) : Host.Outcome State Fault Refusal :=
  match s.mu.gate with
  | none => .next s
  | some t => .next ((s.clockAt t).withMu { s.mu with gate := none })

/-- STOP_TIMER_EXPIRY (R12): STOPPED, every FILLING band sealed with STOP_SEALED, MOTION raised. -/
def execStopTimerExpiry (s : State) : Host.Outcome State Fault Refusal :=
  match s.mu.stopTimer with
  | none => .next s
  | some t =>
    .next (settle (raiseUp .motion (stopSeal ((s.clockAt t).withMu { s.mu with motion := .stopped, stopTimer := none }))))

/-- SPEED_GATE_END (R14): the estimate becomes the gate count × 10 and the next gate begins. -/
def execSpeedGateEnd (s : State) : Host.Outcome State Fault Refusal :=
  .next ((s.clockAt s.mu.speedGateEnd).withMu { s.mu with
    speed := s.mu.gateCount.toNat * 10, gateCount := 0, speedGateEnd := s.mu.speedGateEnd + Config.speedGateUnits })

/-- SET_MOTION's record taken (R15, R16): A is cleared if N or D changes. -/
def setMotion (r : MotionSettings) (s : State) : State × Answer :=
  if r.inRange then
    let kept := r.n = s.mu.settings.n ∧ r.d = s.mu.settings.d
    (s.withMu { s.mu with settings := r, acc := if kept then s.mu.acc else 0 }, { code := .done })
  else refuse .range s

/-- SET_MOTION (R15, R16). -/
def execSetMotion (p : Port) (s : State) : Host.Outcome State Fault Refusal :=
  takeRequest p (some .setMotion) (asHolder p (withFields readMotion setMotion)) s

end Sys2Proof.Machine
end

