-- ==== Sys2Proof/Machine/Dispatch.lean ====
section
/-!
DEFINITION. The meaning of every command: one arm per constructor of Instr, one call of its meaning per arm.
-/

namespace Sys2Proof.Machine

def exec (i : Instr) (s : State) : Host.Outcome State Fault Refusal :=
  match i with
  | .powerOn inputs => Sys2Proof.Machine.execPowerOn inputs s
  | .encoderCount inputs => Sys2Proof.Machine.execEncoderCount inputs s
  | .gateReopen => Sys2Proof.Machine.execGateReopen s
  | .stopTimerExpiry => Sys2Proof.Machine.execStopTimerExpiry s
  | .speedGateEnd => Sys2Proof.Machine.execSpeedGateEnd s
  | .setMotion p => Sys2Proof.Machine.execSetMotion p s
  | .chainExpiry => Sys2Proof.Machine.execChainExpiry s
  | .markEdge edge => Sys2Proof.Machine.execMarkEdge edge s
  | .repeatRestart p => Sys2Proof.Machine.execRepeatRestart p s
  | .setRepeat p => Sys2Proof.Machine.execSetRepeat p s
  | .snapshot p => Sys2Proof.Machine.execSnapshot p s
  | .log p => Sys2Proof.Machine.execLog p s
  | .setLane p => Sys2Proof.Machine.execSetLane p s
  | .lineArrival k frame => Sys2Proof.Machine.execLineArrival k frame s
  | .laneLinkLoss k => Sys2Proof.Machine.execLaneLinkLoss k s
  | .laneLinkReturn k => Sys2Proof.Machine.execLaneLinkReturn k s
  | .laneInfo p => Sys2Proof.Machine.execLaneInfo p s
  | .pageClear p => Sys2Proof.Machine.execPageClear p s
  | .pageSeek p => Sys2Proof.Machine.execPageSeek p s
  | .pageFill p => Sys2Proof.Machine.execPageFill p s
  | .pageCommit p => Sys2Proof.Machine.execPageCommit p s
  | .tableRead p => Sys2Proof.Machine.execTableRead p s
  | .levelStart p => Sys2Proof.Machine.execLevelStart p s
  | .spanEnd => Sys2Proof.Machine.execSpanEnd s
  | .levelAbort p => Sys2Proof.Machine.execLevelAbort p s
  | .levelResults p => Sys2Proof.Machine.execLevelResults p s
  | .setStore p => Sys2Proof.Machine.execSetStore p s
  | .windowOpen p => Sys2Proof.Machine.execWindowOpen p s
  | .windowClose p => Sys2Proof.Machine.execWindowClose p s
  | .windowReturn p => Sys2Proof.Machine.execWindowReturn p s
  | .windowInfo p => Sys2Proof.Machine.execWindowInfo p s
  | .steeringLinkUp p => Sys2Proof.Machine.execSteeringLinkUp p s
  | .grant p => Sys2Proof.Machine.execGrant p s
  | .frameCompletion p => Sys2Proof.Machine.execFrameCompletion p s
  | .stripCompletion p => Sys2Proof.Machine.execStripCompletion p s
  | .stallTimerExpiry p => Sys2Proof.Machine.execStallTimerExpiry p s
  | .steeringLinkLoss p => Sys2Proof.Machine.execSteeringLinkLoss p s
  | .requestArrival p bytes => Sys2Proof.Machine.execRequestArrival p bytes s
  | .badKind p => Sys2Proof.Machine.execBadKind p s
  | .claim p => Sys2Proof.Machine.execClaim p s
  | .release p => Sys2Proof.Machine.execRelease p s
  | .notices p => Sys2Proof.Machine.execNotices p s
  | .status p => Sys2Proof.Machine.execStatus p s
  | .restart p => Sys2Proof.Machine.execRestart p s
  | .markOut p => Sys2Proof.Machine.execMarkOut p s
  | .setMarkerOut p => Sys2Proof.Machine.execSetMarkerOut p s
  | .pulseEnd o => Sys2Proof.Machine.execPulseEnd o s

end Sys2Proof.Machine
end

