-- ==== Sys2Proof/Machine/Records.lean ====
section
/-!
DEFINITION. The bytes of the frames the router sends (11.4 to 11.6): responses with their data, notices and strips, and the frame
on a port's outbound link.
-/

namespace Sys2Proof.Machine

/-! ### Fields (11.1, 11.3) -/

/-- An unsigned field of one byte. -/
def u8 (n : Nat) : List Byte := leBytes 1 n
/-- An unsigned field of two bytes. -/
def u16 (n : Nat) : List Byte := leBytes 2 n
/-- An unsigned field of four bytes. -/
def u32 (n : Nat) : List Byte := leBytes 4 n
/-- A signed field of two bytes, two's complement (11.1). -/
def i16 (n : Int) : List Byte := u16 (BitVec.ofInt 16 n).toNat
/-- A 32-bit count. -/
def count32 (n : BitVec 32) : List Byte := u32 n.toNat
/-- The speed estimate's field of four bytes; what it carries for an estimate that does not fit is a free value (log 18). -/
def speed32 (n : Nat) : List Byte := if n < 4294967296 then u32 n else count32 (Config.freeSpeedField n)
/-- A field that is off or on, no or yes. -/
def flag8 (b : Bool) : List Byte := u8 (codeOfBool b)

/-- A field that may be absent: its presence byte, then its bytes, which are those of zero when it is absent (11.1). -/
def optional (write : Nat → List Byte) : Option Nat → List Byte
  | none => u8 0 ++ write 0
  | some n => u8 1 ++ write n

/-- A port field that may name no port (11.1). -/
def port8 (p : Option Port) : List Byte := u8 (codeOfPort p)

/-- Bits as a flags byte, bit 0 first. -/
def flagsByte (bits : List Bool) : List Byte := u8 (bits.foldr (fun b n => codeOfBool b + 2 * n) 0)

/-! ### Codes (11.3, 11.4) -/

def codeOfLock : LockState → Nat
  | .off => 0 | .hunt => 1 | .locked => 2 | .coast => 3

def codeOfMotion : MotionState → Nat
  | .stopped => 0 | .moving => 1

def codeOfPortState : PortState → Nat
  | .down => 0 | .live => 1 | .stalled => 2

def codeOfRestart : Option RestartKind → Nat
  | none => 0 | some .requested => 1 | some .acquisition => 2

def codeOfLaneState : LaneState → Nat
  | .off => 0 | .active .run => 1 | .active .check => 2 | .fault _ => 3

def codeOfActive : ActiveMode → Nat
  | .run => 1 | .check => 2

/-- The remembered mode, 255 when absent (11.1). -/
def codeOfRemembered : LaneState → Nat
  | .off => 255 | .active _ => 255 | .fault m => codeOfActive m

/-- The mode in force, with the codes of a lane mode (R45). -/
def codeOfForce (st : LaneState) : Nat :=
  match st with
  | .off => 0 | .active m => codeOfActive m | .fault m => codeOfActive m

def codeOfSearch : SearchStatus → Nat
  | .waiting => 0 | .edge => 1 | .notRunning => 2

def codeOfResult : ResultStatus → Nat
  | .notRunning => 2 | .found => 3 | .notFound => 4 | .outOfRange => 5 | .noReference => 6 | .aborted => 7

def codeOfCause : EndCause → Nat
  | .edges => 0 | .span => 1 | .abort => 2

def codeOfResponse : ResponseCode → Nat
  | .done => 0 | .busy => 1 | .notHolder => 2 | .held => 3 | .range => 4 | .tableFull => 5 | .unknown => 6
  | .late => 7 | .full => 8 | .unknownRepeat => 9 | .state => 10 | .queueFull => 11 | .badKind => 12

/-! ### Records (11.6) -/

/-- SNAPSHOT, 25 bytes. -/
def SnapshotRecord.bytes (r : SnapshotRecord) : List Byte :=
  count32 r.wln ++ count32 r.rn ++ u32 r.irl ++ u8 r.phaseFraction ++ i16 r.stretch ++ u8 (codeOfLock r.lock)
    ++ u8 (codeOfMotion r.motion) ++ speed32 r.speed ++ u16 r.owed ++ u8 (codeOfRestart r.restart) ++ flag8 r.pendingSettings

/-- One entry of LOG, 26 bytes. -/
def LogEntry.bytes (e : LogEntry) : List Byte :=
  count32 e.rn ++ count32 e.start ++ u32 e.firstIrl ++ optional u32 e.length ++ i16 e.stretch ++ optional u32 e.markIrl
    ++ flagsByte [e.partialStart, e.irregularEnd] ++ u8 (codeOfLock e.lockAtStart)

/-- LOG. -/
def logBytes (es : List LogEntry) : List Byte := u8 es.length ++ es.flatMap LogEntry.bytes

/-- The four pending items of LANE_INFO, 16 bytes. -/
def LaneFrontEnd.pendingBytes (l : LaneFrontEnd) : List Byte :=
  (match l.pendingMode with
    | none => u8 0 ++ u8 0 ++ u8 0
    | some x => u8 1 ++ u8 (codeOfMode x.1) ++ u8 (codeOfSource x.2))
  ++ optional u16 l.pendingOffset
  ++ (match l.pendingWidth with
    | none => u8 0 ++ u16 0 ++ u16 0
    | some x => u8 1 ++ u16 x.1 ++ u16 x.2)
  ++ (match l.pendingImmediate with
    | none => u8 0 ++ u8 0 ++ u16 0 ++ u8 0
    | some x => u8 1 ++ u8 x.fill.toNat ++ u16 x.flat.toNat ++ flag8 x.correction)

/-- The counters of LANE_INFO, 40 bytes. -/
def LaneCounters.bytes (c : LaneCounters) : List Byte :=
  count32 c.noResponse ++ count32 c.unsolicited ++ count32 c.long ++ count32 c.short ++ count32 c.realign ++ count32 c.stale
    ++ count32 c.frameError ++ count32 c.checkError ++ count32 c.outOfStep ++ count32 c.linkLoss

/-- LANE_INFO, 83 bytes. -/
def laneBytes (k : Lane) (l : LaneFrontEnd) : List Byte :=
  u8 (laneNumber k) ++ u8 (codeOfLaneState l.state) ++ u8 (codeOfRemembered l.state) ++ flag8 l.linkUp
    ++ u8 (codeOfForce l.state) ++ u8 (codeOfSource l.source) ++ u16 l.width ++ u16 l.base ++ u16 l.offset
    ++ u8 l.immediate.fill.toNat ++ u16 l.immediate.flat.toNat ++ flag8 l.immediate.correction
    ++ l.pendingBytes
    ++ u8 l.fifo.length ++ u8 l.drain
    ++ optional u32 (l.lastStamp.map (·.toNat))
    ++ flag8 l.checker.inStep ++ u8 l.checker.cleanRun ++ u16 l.checker.expected.toNat
    ++ l.counters.bytes

/-- The lanes of a set, ascending. -/
def lanesOf (set : PerLane Bool) : List Nat := (allLanes.filter fun k => set.get k).map laneNumber

/-- The lane form, lane count and eight lane bytes of WINDOW_INFO. -/
def windowLaneBytes (lanes : Option (PerLane Bool)) : List Byte :=
  match lanes with
  | none => u8 0 ++ u8 0 ++ List.replicate 8 0
  | some set =>
    let ks := lanesOf set
    u8 1 ++ u8 ks.length ++ ks.flatMap u8 ++ List.replicate (8 - ks.length) 0

/-- WINDOW_INFO, 43 bytes. -/
def windowBytes (id : Nat) (w : Window) : List Byte :=
  u8 id ++ u8 (if w.closing.isSome then 2 else 1) ++ port8 (some w.owner) ++ port8 (some w.origin) ++ flag8 w.adopted
    ++ windowLaneBytes w.lanes ++ u16 w.c0 ++ u16 w.c1 ++ u32 w.l0 ++ optional u32 w.l1 ++ u8 w.stride ++ u8 w.phase
    ++ u8 (codeOfClass w.cls) ++ flag8 w.gap ++ u16 w.sequence.toNat ++ count32 w.sent ++ count32 w.dropped
    ++ u8 (w.closing.getD 0)

/-- The request record of LEVEL_RESULTS, its presence, its port and the start WLN. -/
def levelRequestBytes (r : LevelRequest) (p : Port) (start : Line) : List Byte :=
  u8 1 ++ u8 (laneNumber r.reference) ++ u8 r.threshold ++ u16 r.span ++ flag8 r.apply ++ port8 (some p) ++ count32 start

/-- A lane record of LEVEL_RESULTS, 15 bytes: lane, probe, status, edge stamp, old offset, new offset. -/
def levelLaneBytes (k : Lane) (probe status : Nat) (edge : Option Edge) (new : Option Nat) : List Byte :=
  u8 (laneNumber k) ++ u16 probe ++ u8 status ++ optional u32 (edge.map (·.stamp.toNat)) ++ optional u16 (edge.map (·.offset))
    ++ optional u16 new

/-- The lane records of a set of lanes, counted, in ascending lane number. -/
def levelLanesBytes {α : Type} (records : PerLane (Option α)) (write : Lane → α → List Byte) : List Byte :=
  u8 (allLanes.filter fun k => (records.get k).isSome).length
    ++ allLanes.flatMap fun k => match records.get k with
      | none => []
      | some r => write k r

/-- LEVEL_RESULTS (R90): an IDLE engine sends 19 bytes. -/
def levelBytes : LevelingEngine → List Byte
  | .idle => u8 0 ++ u8 0 ++ u8 0 ++ u8 0 ++ u16 0 ++ u8 0 ++ port8 none ++ u32 0 ++ u8 255 ++ optional u32 none ++ u8 0
  | .searching x =>
    u8 1 ++ levelRequestBytes x.request x.port x.start ++ u8 255 ++ optional u32 none
      ++ levelLanesBytes x.records fun k r => levelLaneBytes k r.probe (codeOfSearch r.status) r.edge none
  | .done f =>
    u8 2 ++ levelRequestBytes f.request f.port f.start ++ u8 (codeOfCause f.cause) ++ optional u32 (some f.endWln.toNat)
      ++ levelLanesBytes f.results fun k r => levelLaneBytes k r.probe (codeOfResult r.status) r.edge r.newOffset

/-- STATUS, 72 bytes. -/
def StatusRecord.bytes (r : StatusRecord) : List Byte :=
  u16 r.pendingSet.toNat
    ++ u8 (codeOfPortState r.portState) ++ u8 r.credit ++ u16 r.essentialDepth ++ u16 r.sheddableDepth ++ u8 r.requestDepth
    ++ port8 r.holder ++ port8 r.standby
    ++ count32 r.wln ++ count32 r.rn ++ u32 r.irl ++ u8 (codeOfLock r.lock) ++ u8 (codeOfMotion r.motion) ++ speed32 r.speed
    ++ u16 r.freeCount ++ flag8 r.pressure
    ++ count32 r.skipped ++ count32 r.encoderErrors ++ count32 r.overruns ++ count32 r.overrunLines ++ count32 r.strays
    ++ count32 r.requestErrors ++ count32 r.stripsSent ++ count32 r.entriesDropped ++ count32 r.markersFired
    ++ count32 r.markersCancelled

/-! ### Frames (11.1, 11.4, 11.5) -/

/-- The data of a response (11.4). -/
def ResponseData.bytes : ResponseData → List Byte
  | .nothing => []
  | .holder p => port8 (some p)
  | .windowId id => u8 id
  | .credit n => u8 n
  | .mask kinds => u16 kinds.toNat
  | .correction c => u16 c.dark ++ u16 c.gain
  | .snapshot r => r.bytes
  | .log es => logBytes es
  | .laneInfo k l => laneBytes k l
  | .windowInfo id w => windowBytes id w
  | .levelResults e => levelBytes e
  | .status r => r.bytes

/-- A response frame's body (11.4). -/
def Response.body (r : Response) : List Byte :=
  r.kind :: r.tag :: u8 (codeOfResponse r.code) ++ flagsByte [r.merged, r.overflow] ++ r.data.bytes

/-- A strip frame's header, 46 bytes, and its presence list (11.5). -/
def StripHeader.bytes (h : StripHeader) : List Byte :=
  u8 h.window ++ port8 (some h.origin) ++ u8 (codeOfClass h.cls) ++ flag8 h.gap ++ u16 h.sequence.toNat ++ u16 h.slot
    ++ u8 (laneNumber h.lane) ++ flagsByte [h.partialStart, h.test, h.overrun, h.stopSealed, h.irregular] ++ u8 (codeOfLock h.lock)
    ++ count32 h.rn ++ u16 h.block ++ u32 h.startIrl ++ u32 h.lastIrl ++ count32 h.startStamp ++ u16 h.base ++ u16 h.width
    ++ count32 h.sealSequence ++ u32 h.firstIrl ++ u8 h.lines ++ u16 h.firstColumn ++ u16 h.columns
    ++ h.presence.flatMap u16

/-- The payload of a strip: the clipped lines upward, each from its first clip column upward, the band's defined content (R138). -/
def stripPayload (mem : List Host.Cell) (e : Entry) (b : Band) (fill : Byte) : List Byte :=
  (List.range e.lines).flatMap fun i =>
    (List.range e.columns).map fun j => bandContent mem e.slot b fill (e.firstIrl + i) (e.firstColumn + j - b.base)

/-- The frame a port's outbound link is sending (11.1); a strip reads its band, which stays HELD while it is in flight (8.6). -/
def State.wire (s : State) (p : Port) : Option (List Byte) :=
  match (s.port p).outbound with
  | none => none
  | some (.response r) => some (envelope 2 r.body)
  | some (.notice kinds) => some (envelope 3 (u16 kinds.toNat))
  | some (.strip e h) =>
    match s.band e.slot with
    | none => none
    | some b => b.sealing.map fun r => envelope 4 (h.bytes ++ stripPayload s.dram e b r.fill)

end Sys2Proof.Machine
end

