-- ==== Sys2Proof/Machine/Step.lean ====
section
/-!
DEFINITION. One step of the router: the command at the front of the queue is taken and executed with the rest of the queue.
-/

namespace Sys2Proof.Machine

/-- One step. On an empty queue the router idles and one unit of its clock passes (log 3). -/
def step (s : State) : Host.Outcome State Fault Refusal :=
  match s.pending with
  | [] => .next (s.withNow (s.now + 1))
  | c :: rest => exec c (s.withPending rest)

/-- The state with the command that a word spells put at the front of its queue; no word spells one (the table gives no row any
bits), so the state stays as it is. -/
def State.withFetchWord (s : State) (nbits w : Nat) : State :=
  match decodeTableWord nbits w with
  | none => s
  | some c => s.withPending (c :: s.pending)

end Sys2Proof.Machine
end

