-- ==== Sys2Proof/Safety.lean ====
section
/-!
DEFINITION. What the statements about the router speak of: the parts of the state that a command may change, the invariants
that every step keeps, and what the taking of a request leaves behind.
-/

namespace Sys2Proof.Machine

/-! ### Frames -/

/-- The parts of the state, one for each field of State. -/
inductive Part where
  | pending | now | mu | ru | lanes | cb | le | bsc | dram | windows | ports | shared | mku
  deriving DecidableEq, Repr

/-- Two states agree on every part that is not in a list. -/
structure State.Agree (changed : List Part) (s t : State) : Prop where
  pending : Part.pending ∉ changed → t.pending = s.pending
  now : Part.now ∉ changed → t.now = s.now
  mu : Part.mu ∉ changed → t.mu = s.mu
  ru : Part.ru ∉ changed → t.ru = s.ru
  lanes : Part.lanes ∉ changed → t.lanes = s.lanes
  cb : Part.cb ∉ changed → t.cb = s.cb
  le : Part.le ∉ changed → t.le = s.le
  bsc : Part.bsc ∉ changed → t.bsc = s.bsc
  dram : Part.dram ∉ changed → t.dram = s.dram
  windows : Part.windows ∉ changed → t.windows = s.windows
  ports : Part.ports ∉ changed → t.ports = s.ports
  shared : Part.shared ∉ changed → t.shared = s.shared
  mku : Part.mku ∉ changed → t.mku = s.mku

/-- The parts a delivery end or a closure reaches: releases, window records, queues and links. -/
def deliveryParts : List Part := [.bsc, .windows, .ports]

/-- The parts a line event reaches: the lane, a commit, the search, the store and the matching of a sealed band. -/
def lineParts : List Part := [.lanes, .cb, .le, .bsc, .dram, .windows, .ports]

/-- The parts a command may change; `windows` and `ports` stand also for a strip that an idle link begins at the end of an event
(R135, R137). The queue of commands is no part of any command's effect. -/
def touched : Instr → List Part
  | .powerOn _ => [.mu, .ru, .lanes, .cb, .le, .bsc, .windows, .ports, .shared, .mku]
  | .encoderCount _ => [.mu, .ru, .lanes, .cb, .le, .bsc, .dram, .windows, .ports, .mku]
  | .gateReopen => [.now, .mu]
  | .stopTimerExpiry => [.now, .mu, .bsc, .windows, .ports]
  | .speedGateEnd => [.now, .mu]
  | .setMotion _ => [.mu, .windows, .ports]
  | .chainExpiry => [.ru]
  | .markEdge _ => [.ru, .windows, .ports]
  | .repeatRestart _ => [.ru, .windows, .ports]
  | .setRepeat _ => [.ru, .windows, .ports]
  | .snapshot _ => [.windows, .ports]
  | .log _ => [.windows, .ports]
  | .setLane _ => [.lanes, .windows, .ports]
  | .lineArrival _ _ => lineParts
  | .laneLinkLoss _ => lineParts
  | .laneLinkReturn _ => [.lanes, .windows, .ports]
  | .laneInfo _ => [.windows, .ports]
  | .pageClear _ => [.cb, .windows, .ports]
  | .pageSeek _ => [.cb, .windows, .ports]
  | .pageFill _ => [.cb, .windows, .ports]
  | .pageCommit _ => [.cb, .windows, .ports]
  | .tableRead _ => [.windows, .ports]
  | .levelStart _ => [.lanes, .le, .windows, .ports]
  | .spanEnd => [.lanes, .le, .windows, .ports]
  | .levelAbort _ => [.le, .windows, .ports]
  | .levelResults _ => [.windows, .ports]
  | .setStore _ => [.bsc, .windows, .ports, .shared]
  | .windowOpen _ => [.windows, .ports]
  | .windowClose _ => deliveryParts
  | .windowReturn _ => [.windows, .ports]
  | .windowInfo _ => [.windows, .ports]
  | .steeringLinkUp _ => [.ports]
  | .grant _ => [.windows, .ports]
  | .frameCompletion _ => [.mu, .ru, .lanes, .cb, .le, .bsc, .windows, .ports, .shared, .mku]
  | .stripCompletion _ => deliveryParts
  | .stallTimerExpiry _ => [.now, .bsc, .windows, .ports]
  | .steeringLinkLoss _ => [.mu, .ru, .lanes, .cb, .le, .bsc, .windows, .ports, .shared, .mku]
  | .requestArrival _ _ => [.windows, .ports]
  | .badKind _ => [.windows, .ports]
  | .claim _ => [.windows, .ports, .shared]
  | .release _ => [.windows, .ports, .shared]
  | .notices _ => [.windows, .ports]
  | .status _ => [.windows, .ports]
  | .restart _ => [.windows, .ports, .shared]
  | .markOut _ => [.windows, .ports, .mku]
  | .setMarkerOut _ => [.windows, .ports, .mku]
  | .pulseEnd _ => [.now, .mku]

/-! ### Invariants -/

/-- The motion values stay in their ranges (the table of 1.1, R3, R5, R15). -/
structure MotionOk (s : State) : Prop where
  ratio : 1 ≤ s.mu.settings.n ∧ s.mu.settings.n ≤ s.mu.settings.d
  acc : s.mu.acc < s.mu.settings.d
  owed : s.mu.owed ≤ Config.owedMax

/-- Each entry of a log is closed and ends where the next one starts, with the next repeat number (R22). -/
def logChained : List LogEntry → LogEntry → Prop
  | [], _ => True
  | [e], last => (∃ n, e.length = some n ∧ last.start = e.start + BitVec.ofNat 32 n) ∧ last.rn = e.rn + 1
  | e :: f :: es, last =>
    ((∃ n, e.length = some n ∧ f.start = e.start + BitVec.ofNat 32 n) ∧ f.rn = e.rn + 1) ∧ logChained (f :: es) last

/-- The repeat log keeps its order (R22). -/
structure LogOk (s : State) : Prop where
  size : s.ru.entries.length ≤ Config.logCapacity
  newestOpen : s.ru.newest.length = none
  chained : logChained s.ru.older s.ru.newest

/-- The numbering keeps in step with the web (R24): the phase is below the end of the current repeat and its whole lines are the current
IRL (R23), |S| is at most Cmax and 0 until the repeat's one mark is accepted, the newest entry records the mark and S, and the settings in
force and pending are in range (R36). -/
structure RepeatOk (s : State) : Prop where
  settings : s.ru.settings.inRange = true
  pending : ∀ r, s.ru.pendingSettings = some r → r.inRange = true
  phase : (s.ru.phase : Int) < s.ru.settings.length + 256 * s.ru.stretch
  irl : s.ru.phase / 256 = s.currentIrl
  stretch : s.ru.stretch.natAbs ≤ s.ru.settings.cmax
  unmarked : s.ru.accepted = false → s.ru.stretch = 0
  mark : s.ru.newest.markIrl.isSome = s.ru.accepted
  recorded : s.ru.newest.stretch = s.ru.stretch

/-- A lane's width and column base lie in the ranges that SET_LANE admits (R46). -/
abbrev WidthOk (width base : Nat) : Prop := 512 ≤ width ∧ width ≤ 8192 ∧ width % 64 = 0 ∧ base + width ≤ 65536

/-- The width, column base and offset of every lane are in range (R46), in force and pending, and so is every offset recorded from
them: in the trigger FIFO (R54) and in the edges of a search (R84). -/
structure LanesOk (s : State) : Prop where
  width : ∀ k, WidthOk (s.lane k).width (s.lane k).base
  pendingWidth : ∀ k item, (s.lane k).pendingWidth = some item → WidthOk item.1 item.2
  offset : ∀ k, (s.lane k).offset ≤ 4095
  pendingOffset : ∀ k o, (s.lane k).pendingOffset = some o → o ≤ 4095
  fifo : ∀ k, ∀ e ∈ (s.lane k).fifo, e.offset ≤ 4095
  edges : ∀ x k r e, s.le = .searching x → x.records.get k = some r → r.edge = some e → e.offset ≤ 4095

/-- Every bounded list and count of the router is within its bound. -/
structure CapacityOk (s : State) : Prop where
  fifo : ∀ k, (s.lane k).fifo.length ≤ Config.fifoCapacity
  drain : ∀ k, (s.lane k).drain ≤ Config.fifoCapacity
  pointer : s.cb.pointer < Config.pageEntries
  queues : ∀ p cls, ((s.port p).queue cls).length ≤ Config.queueCapacity
  credit : ∀ p, (s.port p).credit ≤ Config.creditMax
  requests : ∀ p, (s.port p).requests.length ≤ Config.requestCapacity
  responses : ∀ p, (s.port p).responses.length ≤ Config.responseCapacity
  markers : s.mku.queue.length ≤ Config.markerCapacity

/-- Every slot is in exactly one of the three states (R92), and the free list holds every FREE slot once (R94). -/
structure SlotsOk (s : State) : Prop where
  sorted : tableSorted s.bsc.bands
  once : (s.bsc.free ++ s.bsc.bands.map (·.1)).Perm (List.range Config.slotCount)
  filling : ∀ k slot, s.bsc.filling.get k = some slot ↔ ∃ b, s.band slot = some b ∧ b.lane = k ∧ b.sealing = none

/-- The store is under pressure only while the free count is at most reserve + 32, and always while it is at most the reserve (R108,
R109). -/
structure PressureOk (s : State) : Prop where
  entered : s.bsc.pressure = true → s.bsc.free.length ≤ s.bsc.reserve + 32
  left : s.bsc.pressure = false → s.bsc.reserve < s.bsc.free.length

/-- The delivery entries a port holds, queued or in flight. -/
def ConsumerPort.entries (c : ConsumerPort) : List Entry :=
  c.essential ++ c.sheddable ++ match c.outbound with
    | some (.strip e _) => [e]
    | some (.response _) => []
    | some (.notice _) => []
    | none => []

/-- The number of delivery entries that name a slot, at all ports. -/
def State.naming (s : State) (slot : Nat) : Nat :=
  (allPorts.flatMap fun p => (s.port p).entries).countP fun e => decide (e.slot = slot)

/-- The holder count of every HELD band is the number of entries that name it, and at least 1; no entry names a FREE or a FILLING
slot (R107). -/
structure HoldersOk (s : State) : Prop where
  held : ∀ slot b r, s.band slot = some b → b.sealing = some r → s.naming slot = r.holders ∧ 1 ≤ r.holders
  filling : ∀ slot b, s.band slot = some b → b.sealing = none → s.naming slot = 0
  free : ∀ slot, s.band slot = none → s.naming slot = 0

/-- A port whose link is down is DOWN, and a DOWN port holds no work (R131, R132, R148, R174); the claim holder is not DOWN
(R174), and a RESTART in progress is the claim holder's (R175). -/
structure PortsOk (s : State) : Prop where
  link : ∀ p, (s.port p).linkUp = false → (s.port p).state = .down
  quiet : ∀ p, (s.port p).state = .down → (s.port p).credit = 0 ∧ (s.port p).essential = [] ∧ (s.port p).sheddable = []
    ∧ (s.port p).outbound = none ∧ (s.port p).stall = none ∧ (s.port p).requests = [] ∧ (s.port p).responses = []
    ∧ (s.port p).notice = none ∧ (s.port p).pendingSet = 0 ∧ (s.port p).mask = 0
  holder : ∀ p, s.shared.holder = some p → (s.port p).isUp = true
  restart : ∀ p, s.shared.restart = some p → s.shared.holder = some p

/-- Every queued entry names an OPEN window of the queue's class (R118, R137), a strip in flight one that is not FREE; a CLOSING window
holds the number of its strips in flight, at least 1 (R118, R119); an OPEN window's owner is not DOWN (R148), and a window is adopted
exactly when its owner is not its origin (R113). -/
structure WindowsOk (s : State) : Prop where
  sorted : tableSorted s.windows
  ids : ∀ id w, s.window id = some w → id < Config.windowCount
  queued : ∀ p cls, ∀ e ∈ (s.port p).queue cls, e.cls = cls ∧ ∃ w, s.window e.window = some w ∧ w.closing = none ∧ w.cls = cls
  inFlight : ∀ p id, (s.port p).stripWindow = some id → (s.window id).isSome = true
  closing : ∀ id w n, s.window id = some w → w.closing = some n → n = stripsInFlight id s ∧ 1 ≤ n
  owner : ∀ id w, s.window id = some w → w.closing = none → (s.port w.owner).isUp = true
  adopted : ∀ id w, s.window id = some w → (w.adopted = true ↔ w.owner ≠ w.origin)

/-- The marker queue (R152): every target is after the WLN (at or after it in R152, and after it once the due line is done, R157), the
entries are in order of their distance from the WLN, no two have the same output and target, and the pulse width and the requester set
are in their ranges. -/
structure MarkersOk (s : State) : Prop where
  ahead : ∀ e ∈ s.mku.queue, 0 < lineDiff e.target s.mu.wln
  ordered : s.mku.queue.Pairwise fun a b => lineDiff a.target s.mu.wln ≤ lineDiff b.target s.mu.wln
  once : s.mku.queue.Pairwise fun a b => ¬(a.output = b.output ∧ a.target = b.target)
  fields : ∀ e ∈ s.mku.queue, 1 ≤ e.width ∧ e.width ≤ 65535 ∧ ∃ p, e.requesters.get p = true

/-- Between two events no arbiter has a frame to begin (R135), and a stall timer runs exactly while its conditions hold (R141). -/
structure Settled (s : State) : Prop where
  arbiter : ∀ p, arbitrate s p = s
  stall : ∀ p, (s.port p).stall.isSome = (s.port p).stalling

/-! ### The values of a reset -/

/-- The values that power-on and RESTART give alike (R18, R44, R68, R81, R91, R112, R130, R151, R162, R176), with the encoder levels
present as the reference state; the link states stay as they are, and the model's clock runs on (log 3). -/
structure BlocksReset (inputs : EncInputs) (s t : State) : Prop where
  motion : t.mu = { settings := { n := 1, d := 1, invert := false, spacing := 1000, stopTime := 200 }, reference := inputs, acc := 0,
                    owed := 0, wln := 0, repeatStart := true, gate := none, motion := .stopped, stopTimer := none, gateCount := 0,
                    speedGateEnd := s.now + 10000000, speed := 0, skipped := 0, encoderErrors := 0, overruns := 0 }
  repeats : t.ru = { settings := { length := 2560000, tracking := false, edge := .rising, m := 64, wc := 32, cmax := 8, qacq := 2,
                                   kmiss := 3 }
                     phase := 0, stretch := 0, accepted := false, lock := .off, chain := none, misses := 0, restart := none
                     pendingSettings := none, older := []
                     newest := { rn := 0, start := 0, firstIrl := 0, length := none, stretch := 0, markIrl := none,
                                 partialStart := false, irregularEnd := false, lockAtStart := .off }
                     strays := 0 }
  lanes : ∀ k, t.lane k = { state := .off, linkUp := (s.lane k).linkUp, source := .camera, width := 4096, base := 4096 * laneNumber k,
                            offset := 0, immediate := { fill := 0, flat := 2048, correction := true }, pendingMode := none
                            pendingOffset := none, pendingWidth := none, pendingImmediate := none, fifo := [], drain := 0
                            lastStamp := none, bandRn := none, checker := { inStep := false, cleanRun := 0, expected := 0 }
                            counters := { noResponse := 0, unsolicited := 0, long := 0, short := 0, realign := 0, stale := 0,
                                          frameError := 0, checkError := 0, outOfStep := 0, linkLoss := 0 } }
  tables : ∀ k n, correctionAt (t.cb.tables.get k) n = { dark := 0, gain := 4096 }
  staging : ∀ n, correctionAt t.cb.staging n = { dark := 0, gain := 4096 }
  page : t.cb.pointer = 0 ∧ t.cb.endWritten = false ∧ t.cb.commit = none
  engine : t.le = .idle
  bands : ∀ slot, t.band slot = none
  store : t.bsc.free = List.range 4096 ∧ (∀ k, t.bsc.filling.get k = none ∧ t.bsc.overrunPending.get k = false)
    ∧ t.bsc.sealSequence = 0 ∧ t.bsc.reserve = 128 ∧ t.bsc.pressure = false ∧ t.bsc.overrunLines = 0
  windows : ∀ id, t.window id = none
  shared : t.shared = { holder := none, standby := none, stallTimeout := 100, restart := none }
  markers : t.mku.queue = []
  outputs : ∀ o, t.mku.outputs.get o = { distance := 0, mode := .pulse, polarity := .activeHigh, pendingMode := none, active := false
                                         pulseEnd := none }
  kept : t.pending = s.pending ∧ t.now = s.now ∧ t.dram = s.dram

/-- A port without work in a port state: credit 0, every queue and set empty, the link idle, the counters at 0 (R151, R176). -/
def emptyPort (state : PortState) (linkUp : Bool) : ConsumerPort :=
  { state := state, linkUp := linkUp, credit := 0, essential := [], sheddable := [], outbound := none, stall := none, sent := 0,
    dropped := 0, requests := [], responses := [], mask := 0, pendingSet := 0, notice := none, errors := 0 }

/-! ### Notices -/

/-- A kind joined the pending sets of the ports that a test selects, and no other set changed (R171). -/
def Raised (sel : Port → Bool) (k : NoticeKind) (s t : State) : Prop :=
  ∀ p, (t.port p).pendingSet = if sel p then NoticeSet.add (s.port p).pendingSet k else (s.port p).pendingSet

/-- A kind joined the pending set of every LIVE port other than one, and no other set changed (R167, R168). -/
def RaisedOthers (p : Port) (k : NoticeKind) (s t : State) : Prop := Raised (fun q => decide (q ≠ p) && (s.port q).isLive) k s t

/-- No pending set changed. -/
def NothingRaised (s t : State) : Prop := ∀ p, (t.port p).pendingSet = (s.port p).pendingSet

/-- A kind joined the pending set of every LIVE or STALLED port, and no other set changed (R170, R171). -/
def RaisedUp (k : NoticeKind) (s t : State) : Prop := Raised (fun p => (s.port p).isUp) k s t

/-- A kind is in the pending set of every LIVE or STALLED port (R170, R171). -/
def PendingUp (k : NoticeKind) (s t : State) : Prop := ∀ p, (s.port p).isUp = true → NoticeSet.has (t.port p).pendingSet k = true

/-! ### Repeat openings (2.3, 2.7) -/

/-- The last candidate of a mark chain lies more than repeat lines + Wc before a line, in HUNT (R30). -/
def ChainExpired (w : Line) (s : State) : Prop :=
  s.ru.lock = .hunt ∧ ∃ c, s.ru.chain = some c ∧ (s.ru.settings.length / 256 + s.ru.settings.wc : Int) < lineDiff w c.last

/-- What a repeat opened at a due line leaves of the state before that line, whatever opened it: the log (R21, R22), the settings with the
chain and the lock table of R38 (the chain emptied by a record equal to the settings in force too: the model's choice, log 27), and LOCK
raised at a change of the lock and REPEAT raised (R21, R38, 2.5). -/
structure RepeatOpened (w : Line) (irregular : Bool) (s t : State) : Prop where
  newest : t.ru.newest.rn = s.ru.newest.rn + 1 ∧ t.ru.newest.start = w ∧ t.ru.newest.length = none ∧ t.ru.newest.stretch = 0
    ∧ t.ru.newest.irregularEnd = false ∧ t.ru.newest.lockAtStart = t.ru.lock
  older : let closed := { s.ru.newest with length := some (w - s.ru.newest.start).toNat, irregularEnd := irregular }
    t.ru.older = if s.ru.older.length + 1 < 16 then s.ru.older ++ [closed] else s.ru.older.tail ++ [closed]
  stretch : t.ru.stretch = 0
  settings : t.ru.settings = s.ru.pendingSettings.getD s.ru.settings ∧ t.ru.pendingSettings = none
  trackingOn : ∀ r, s.ru.pendingSettings = some r → s.ru.settings.tracking = false → r.tracking = true →
    t.ru.lock = .hunt ∧ t.ru.misses = 0
  trackingOff : ∀ r, s.ru.pendingSettings = some r → s.ru.settings.tracking = true → r.tracking = false →
    t.ru.lock = .off ∧ t.ru.misses = s.ru.misses
  trackingKept : (∀ r, s.ru.pendingSettings = some r → r.tracking = s.ru.settings.tracking) →
    t.ru.lock = s.ru.lock ∧ t.ru.misses = s.ru.misses
  chainEmptied : s.ru.pendingSettings.isSome = true ∨ ChainExpired w s → t.ru.chain = none
  chainKept : s.ru.pendingSettings = none → ¬ChainExpired w s → t.ru.chain = s.ru.chain
  raised : ∀ p, (t.port p).pendingSet = if (s.port p).isUp then
      NoticeSet.add (if t.ru.lock = s.ru.lock then (s.port p).pendingSet else NoticeSet.add (s.port p).pendingSet .lock) .repeatOpened
    else (s.port p).pendingSet

/-! ### Store pressure (6.7) -/

/-- Pressure was judged once, by the free count as it now stands: entered at or below the reserve, left above reserve + 32, and otherwise
as it was; PRESSURE was raised at every LIVE port at a change, and no kind at any port without one (R108). -/
structure PressureJudged (s t : State) : Prop where
  pressure : t.bsc.pressure = if s.bsc.pressure then decide (t.bsc.free.length ≤ s.bsc.reserve + 32)
    else decide (t.bsc.free.length ≤ s.bsc.reserve)
  raised : t.bsc.pressure ≠ s.bsc.pressure → Raised (fun q => (s.port q).isLive) .pressure s t
  quiet : t.bsc.pressure = s.bsc.pressure → NothingRaised s t

/-- Slots, any number of them, joined the free list: a store under pressure left it if more than reserve + 32 slots are free in the end,
and PRESSURE was then raised at every LIVE port of those that a test names (R108). -/
structure PressureReleased (sel : Port → Prop) (s t : State) : Prop where
  pressure : t.bsc.pressure = (s.bsc.pressure && decide (t.bsc.free.length ≤ s.bsc.reserve + 32))
  raised : ∀ q, sel q → NoticeSet.has (t.port q).pendingSet .pressure
    = (NoticeSet.has (s.port q).pendingSet .pressure || ((t.port q).isLive && decide (t.bsc.pressure ≠ s.bsc.pressure)))

/-! ### Searches (chapter 5) -/

/-- Some lane of a search is WAITING (R84, R85). -/
def Search.awaits (x : Search) : Prop := ∃ k r, x.records.get k = some r ∧ r.status = .waiting

/-- The results of a search that ends by EDGES or SPAN (R87). `withReference`: the reference lane has an edge (its offset is at most
4095, as every offset is, R46). `withoutReference`: it has none, and every other lane is NO_REFERENCE. -/
structure EndedBy (x : Search) (cause : EndCause) (wln : Line) (f : Finished) : Prop where
  record : f.request = x.request ∧ f.port = x.port ∧ f.start = x.start ∧ f.cause = cause ∧ f.endWln = wln
  outside : ∀ k, x.records.get k = none → f.results.get k = none
  withReference : ∀ q base, x.records.get x.request.reference = some q → q.status = .edge → q.edge = some base → base.offset ≤ 4095 →
    ∀ k r, x.records.get k = some r →
      (r.status = .waiting → f.results.get k = some { probe := r.probe, status := .notFound, edge := none, newOffset := none })
      ∧ (r.status = .notRunning → f.results.get k = some { probe := r.probe, status := .notRunning, edge := none, newOffset := none })
      ∧ ∀ g, r.status = .edge → r.edge = some g → let sum := (g.offset : Int) + lineDiff g.stamp base.stamp
        (0 ≤ sum → sum ≤ 4095 →
          f.results.get k = some { probe := r.probe, status := .found, edge := some g, newOffset := some sum.toNat })
        ∧ (sum < 0 ∨ 4095 < sum → f.results.get k = some { probe := r.probe, status := .outOfRange, edge := some g, newOffset := none })
  withoutReference : ∀ q, x.records.get x.request.reference = some q → q.status ≠ .edge →
    f.results.get x.request.reference = some {
      probe := q.probe, status := if q.status = .waiting then .notFound else .notRunning, edge := none, newOffset := none }
    ∧ ∀ k r, k ≠ x.request.reference → x.records.get k = some r →
      f.results.get k = some {
        probe := r.probe, status := .noReference, edge := if r.status = .edge then r.edge else none, newOffset := none }

/-- A search ended: its results stand (R87), the new offset of every FOUND lane is staged if apply is set and no lane changes otherwise,
and LEVEL is raised at the requesting port if that is LIVE or STALLED (R88). -/
def SearchEnded (x : Search) (cause : EndCause) (wln : Line) (s t : State) : Prop :=
  ∃ f, t.le = .done f ∧ EndedBy x cause wln f
    ∧ (∀ k r n, x.request.apply = true → f.results.get k = some r → r.status = .found → r.newOffset = some n →
        t.lane k = { s.lane k with pendingOffset := some n })
    ∧ (∀ k, x.request.apply = false ∨ (∀ r, f.results.get k = some r → r.status ≠ .found) → t.lane k = s.lane k)
    ∧ Raised (fun q => decide (q = x.port) && (s.port q).isUp) .level s t
    ∧ State.Agree [.lanes, .le, .ports] s t

/-! ### Failure handling (8.8) -/

/-- A port takes over the windows and entries of a port that fails: it is the standby, another port, and LIVE (R144). -/
def TakesOver (s : State) (p st : Port) : Prop := s.shared.standby = some st ∧ st ≠ p ∧ (s.port st).state = .live

/-- The queued entries of a class that the failure of a port leaves without a port: those that do not fit behind the entries of the
standby that takes over (R146), or all of them without one (R147). -/
def State.leftOver (s : State) (p : Port) (cls : DeliveryClass) : List Entry :=
  match s.shared.standby with
  | none => (s.port p).queue cls
  | some st =>
    if st ≠ p ∧ (s.port st).state = .live then ((s.port p).queue cls).drop (256 - ((s.port st).queue cls).length)
    else (s.port p).queue cls

/-- The strip that a port has in flight for an OPEN window, which a link loss aborts as lost (R140). -/
def State.abortLost (s : State) (p : Port) : List Entry :=
  match (s.port p).outbound with
  | some (.strip e _) => if (s.window e.window).any fun w => w.closing.isNone then [e] else []
  | some (.response _) => []
  | some (.notice _) => []
  | none => []

/-- Each OPEN window that stays OPEN counted the lost entries that name it and has GAP pending if there are any (R140, R146, R147),
unless a port whose link was idle has begun a strip of the window since, which carries that GAP and clears it (R137). -/
def LossCounted (lost : List Entry) (s t : State) : Prop :=
  ∀ id w v, s.window id = some w → w.closing = none → t.window id = some v → v.closing = none →
    let n := lost.countP fun e => decide (e.window = id)
    v.dropped = w.dropped + BitVec.ofNat 32 n
    ∧ (v.gap = (w.gap || decide (0 < n)) ∧ v.sequence = w.sequence ∧ v.sent = w.sent
      ∨ v.gap = false ∧ v.sequence = w.sequence + 1 ∧ v.sent = w.sent + 1
        ∧ ∃ q e h, (s.port q).outbound = none ∧ (t.port q).outbound = some (.strip e h) ∧ e.window = id
          ∧ h.gap = (w.gap || decide (0 < n)) ∧ h.sequence = w.sequence)

/-- Every HELD band is HELD by the entries that still name it, or its slot joined the free list where none does; no other band changes,
and the free list only grows at its tail (R107). -/
structure EntriesReleased (s t : State) : Prop where
  held : ∀ slot b r, s.band slot = some b → b.sealing = some r →
    if t.naming slot = 0 then t.band slot = none ∧ slot ∈ t.bsc.free
    else t.band slot = some { b with sealing := some { r with holders := t.naming slot } }
  others : ∀ slot, (∀ b r, s.band slot = some b → b.sealing ≠ some r) → t.band slot = s.band slot
  free : ∃ freed, t.bsc.free = s.bsc.free ++ freed

/-- What the standby's queues hold after it takes over a port's entries: behind its own, the oldest that fit, in their order (R146), less
the entry for which its idle link began a strip since (R135, R136). -/
def EntriesMoved (p st : Port) (s t : State) : Prop :=
  ∀ cls, let all := (s.port st).queue cls ++ ((s.port p).queue cls).take (256 - ((s.port st).queue cls).length)
    (t.port st).queue cls = all
    ∨ (s.port st).outbound = none ∧ 1 ≤ (s.port st).credit
      ∧ ∃ e h, (t.port st).outbound = some (.strip e h) ∧ all = e :: (t.port st).queue cls

/-! ### The encoder (1.2) -/

/-- A change of the encoder inputs that is one forward count: to the forward next state with direction invert off, to the reverse next
state with it on (R1). -/
def ForwardMove (s : State) (inputs : EncInputs) : Prop :=
  inputs = if s.mu.settings.invert then oppositeInputs (forwardInputs s.mu.reference) else forwardInputs s.mu.reference

/-- A change of the encoder inputs that is one reverse count (R1). -/
def ReverseMove (s : State) (inputs : EncInputs) : Prop :=
  inputs = if s.mu.settings.invert then forwardInputs s.mu.reference else oppositeInputs (forwardInputs s.mu.reference)

/-! ### The taking of a request -/

/-- A request frame stands at the head of a port's queue, and the port takes requests (R164). -/
structure Taken (s : State) (p : Port) (f : RequestFrame) (rest : List RequestFrame) : Prop where
  head : (s.port p).requests = f :: rest
  takes : s.takesRequests p = true

/-- The command that stands for the taking of a request of a kind by a port. -/
def RequestKind.command (p : Port) : RequestKind → Instr
  | .setMotion => .setMotion p | .setRepeat => .setRepeat p | .repeatRestart => .repeatRestart p | .snapshot => .snapshot p
  | .log => .log p | .setLane => .setLane p | .laneInfo => .laneInfo p | .pageClear => .pageClear p | .pageSeek => .pageSeek p
  | .pageFill => .pageFill p | .pageCommit => .pageCommit p | .tableRead => .tableRead p | .levelStart => .levelStart p
  | .levelAbort => .levelAbort p | .levelResults => .levelResults p | .windowOpen => .windowOpen p | .windowClose => .windowClose p
  | .windowReturn => .windowReturn p | .windowInfo => .windowInfo p | .grant => .grant p | .setStore => .setStore p
  | .markOut => .markOut p | .setMarkerOut => .setMarkerOut p | .claim => .claim p | .release => .release p
  | .notices => .notices p | .status => .status p | .restart => .restart p

/-- The claim requests of the table of R165. -/
def RequestKind.isClaim : RequestKind → Bool
  | .setMotion | .setRepeat | .repeatRestart | .setLane | .pageClear | .pageSeek | .pageFill | .pageCommit | .levelStart
  | .levelAbort | .setStore | .setMarkerOut | .restart => true
  | .snapshot | .log | .laneInfo | .tableRead | .levelResults | .windowOpen | .windowClose | .windowReturn | .windowInfo | .grant
  | .markOut | .claim | .release | .notices | .status => false

/-- The response of an answer to a request under a tag. -/
def responseTo (r : Request) (tag : Byte) (a : Answer) : Response := a.response (r.frame tag)

/-- A port whose request left its queue and was answered: the response is begun on an idle link, and waits behind the others on a
busy one (R135, R165). -/
def ConsumerPort.answered (c : ConsumerPort) (rest : List RequestFrame) (x : Response) : ConsumerPort :=
  match c.outbound with
  | none => { c with requests := rest, outbound := some (.response x) }
  | some _ => { c with requests := rest, responses := c.responses ++ [x] }

/-- A state in which a port's request left its queue and was answered. -/
def answered (p : Port) (rest : List RequestFrame) (x : Response) (s : State) : State :=
  s.setPort p ((s.port p).answered rest x)

/-- The request left the queue, and its response is on the link or waits as the last (R135, R165); the rest of the state apart. -/
def Delivered (s t : State) (p : Port) (rest : List RequestFrame) (x : Response) : Prop :=
  (t.port p).requests = rest
  ∧ match (s.port p).outbound with
    | none => (t.port p).outbound = some (.response x)
    | some f => (t.port p).outbound = some f ∧ (t.port p).responses = (s.port p).responses ++ [x]

end Sys2Proof.Machine
end

