-- ==== Sys2Proof/Certificates/Slice0/Obligations.lean ====
section
/-!
DEFINITION. The statements for the provers: what the commands of the router do, what every step keeps, and how requests are read.
-/

open Sys2Proof
open Sys2Proof.Machine

/-! ## The machine -/

/-- A step takes the command at the front of the queue and executes it with the queue's rest (the row's instructions for a block;
log 23 says how commands reach the queue). -/
def Obligations.StepTakesFront : Prop :=
  ∀ (c : Instr) (rest : List Instr) (s : State), s.pending = c :: rest → step s = exec c (s.withPending rest)

/-- On an empty queue one unit of the model's clock passes and nothing else changes: the model's choice, log 3. -/
def Obligations.IdleTick : Prop :=
  ∀ s : State, s.pending = [] → step s = .next (s.withNow (s.now + 1))

/-- Every command, in every state, answers a next state, and that state differs only in the parts that `touched` lists for the
command; in particular no command faults, is refused or changes the queue of commands. -/
def Obligations.CommandFrames : Prop :=
  ∀ (c : Instr) (s : State), ∃ t, exec c s = .next t ∧ State.Agree (touched c) s t

/-! ## What every step keeps -/

/-- The values right after reset meet every invariant below. -/
def Obligations.ResetInvariants : Prop :=
  Memory.wf State.reset.dram ∧ MotionOk State.reset ∧ LogOk State.reset ∧ CapacityOk State.reset ∧ SlotsOk State.reset
    ∧ HoldersOk State.reset ∧ PortsOk State.reset ∧ WindowsOk State.reset ∧ MarkersOk State.reset ∧ PressureOk State.reset
    ∧ RepeatOk State.reset ∧ LanesOk State.reset ∧ Settled State.reset

/-- Every step keeps the store in its canonical form. -/
def Obligations.StepKeepsStore : Prop :=
  ∀ s t : State, Memory.wf s.dram → step s = .next t → Memory.wf t.dram

/-- Every step keeps N within 1 to D, the divider accumulator below D and the backtrack owed count at most 4095. -/
def Obligations.StepKeepsMotion : Prop :=
  ∀ s t : State, MotionOk s → step s = .next t → MotionOk t

/-- Every step keeps the repeat log in order: 1 to 16 entries with consecutive repeat numbers, exactly the newest without a length,
and each entry starting where the one before it ends. Every step keeps the repeat phase below the end of the current repeat, its whole
lines equal to the current IRL, |S| at most Cmax and 0 before the repeat's mark, and the repeat settings in force and pending in range. -/
def Obligations.StepKeepsLog : Prop :=
  ∀ s t : State, step s = .next t → (LogOk s → LogOk t) ∧ (RepeatOk s → RepeatOk t)

/-- Every step keeps every FIFO, queue, credit, drain count and staging pointer within its bound, and the marker queue in order: each
target after the WLN, the entry due soonest at the head, no two entries with the same output and target, and the fields of each entry in
their ranges. Every step keeps each lane's width a multiple of 64 in 512 to 8192, its column base plus width at most 65536 and its offset
at most 4095, in force and pending, and every offset recorded in a FIFO or in a search's edge at most 4095. -/
def Obligations.StepKeepsCapacities : Prop :=
  ∀ s t : State, step s = .next t → (CapacityOk s → CapacityOk t) ∧ (MarkersOk s → MarkersOk t) ∧ (LanesOk s → LanesOk t)

/-- Every step keeps every band slot in exactly one of FREE, FILLING and HELD: the free list holds every slot that has no band record
once, and a lane's filling band names the one FILLING slot of that lane. Every step keeps pressure in step with the free count: on at or
below the reserve, off above reserve + 32. -/
def Obligations.StepKeepsSlots : Prop :=
  ∀ s t : State, step s = .next t → (SlotsOk s → SlotsOk t) ∧ (PressureOk s → PressureOk t)

/-- Every step keeps the holder count of every HELD band equal to the number of delivery entries that name it, queued or in flight,
and at least 1, with no entry naming a FREE or FILLING slot. -/
def Obligations.StepKeepsHolders : Prop :=
  ∀ s t : State, SlotsOk s → PortsOk s → HoldersOk s → step s = .next t → HoldersOk t

/-- Every step keeps a DOWN port without work, the claim holder a port that is not DOWN, and a RESTART in progress the claim
holder's. -/
def Obligations.StepKeepsPorts : Prop :=
  ∀ s t : State, PortsOk s → step s = .next t → PortsOk t

/-- Every step keeps the window table: every queued entry names an OPEN window of its queue's class, a CLOSING window counts its strips
in flight, an OPEN window's owner is not DOWN, and a window is adopted exactly when its owner is not its origin. -/
def Obligations.StepKeepsWindows : Prop :=
  ∀ s t : State, PortsOk s → WindowsOk s → step s = .next t → WindowsOk t

/-- After every step no idle link of a LIVE or STALLED port leaves a ready frame waiting, and a stall timer runs exactly while its
three conditions hold; that the arbiters judge at the end of an event is the model's choice, log 9. -/
def Obligations.StepKeepsSettled : Prop :=
  ∀ s t : State, Settled s → step s = .next t → Settled t

/-! ## Requests and frames -/

/-- The field bytes of every request whose fields fit their sizes are read back as that request, with every field at every value. -/
def Obligations.RequestFieldsRoundTrip : Prop :=
  ∀ r : Request, r.fits → readRequest r.kind r.fields = some r

/-- Every request frame formed by the envelope's rules is accepted as the frame it carries. -/
def Obligations.RequestFrameRoundTrip : Prop :=
  ∀ f : RequestFrame, f.fields.length + 11 < 4294967296 → judgeFrame f.bytes = some f

/-- The sizes of the records and of the notice and strip frames (11.4 to 11.6); a LEVEL_RESULTS record is 19 bytes and 15 for each lane
of the set, none of them in an IDLE engine. -/
def Obligations.FrameSizes : Prop :=
  (∀ r : SnapshotRecord, r.bytes.length = 25)
  ∧ (∀ es : List LogEntry, (logBytes es).length = 1 + 26 * es.length)
  ∧ (∀ (k : Lane) (l : LaneFrontEnd), (laneBytes k l).length = 83)
  ∧ (∀ (id : Nat) (w : Window), (windowBytes id w).length = 43)
  ∧ (∀ r : StatusRecord, r.bytes.length = 72)
  ∧ (levelBytes .idle).length = 19
  ∧ (∀ x : Search, (levelBytes (.searching x)).length = 19 + 15 * (allLanes.filter fun k => (x.records.get k).isSome).length)
  ∧ (∀ f : Finished, (levelBytes (.done f)).length = 19 + 15 * (allLanes.filter fun k => (f.results.get k).isSome).length)
  ∧ (∀ kinds : NoticeSet, (envelope 3 (u16 kinds.toNat)).length = 11)
  ∧ ∀ (s : State) (e : Entry) (w : Window) (b : Band) (r : SealRecord),
      (envelope 4 ((stripHeader e w b r).bytes ++ stripPayload s.dram e b r.fill)).length
        = 5 + 46 + 2 * e.lines + e.lines * e.columns + 4

/-! ## Motion Unit -/

/-- A forward count adds N to A; at D or more, D is subtracted and a line step occurs, which pays off the backtrack owed count and
is a due line only where that is 0. -/
def Obligations.ForwardCount : Prop :=
  ∀ (s : State) (inputs : EncInputs), Settled s → ForwardMove s inputs →
    (s.mu.acc + s.mu.settings.n < s.mu.settings.d →
      exec (.encoderCount inputs) s = .next (s.withMu { s.mu with reference := inputs, acc := s.mu.acc + s.mu.settings.n }))
    ∧ (s.mu.settings.d ≤ s.mu.acc + s.mu.settings.n → 0 < s.mu.owed →
      exec (.encoderCount inputs) s = .next (s.withMu { s.mu with
        reference := inputs, acc := s.mu.acc + s.mu.settings.n - s.mu.settings.d, owed := s.mu.owed - 1 }))
    ∧ (s.mu.settings.d ≤ s.mu.acc + s.mu.settings.n → s.mu.owed = 0 →
      exec (.encoderCount inputs) s = .next (settle (dueLine (s.withMu { s.mu with
        reference := inputs, acc := s.mu.acc + s.mu.settings.n - s.mu.settings.d }))))

/-- A reverse count subtracts N from A; below 0, D is added and a reverse line step counts the owed lines up; at 4095 it is a reverse
overrun, counted, raised as ENCODER and handed to the Repeat Unit, whose lock goes to HUNT unless it is OFF, its chain emptied
and LOCK raised at a change of it. -/
def Obligations.ReverseCount : Prop :=
  ∀ (s : State) (inputs : EncInputs), Settled s → ReverseMove s inputs →
    (s.mu.settings.n ≤ s.mu.acc →
      exec (.encoderCount inputs) s = .next (s.withMu { s.mu with reference := inputs, acc := s.mu.acc - s.mu.settings.n }))
    ∧ (s.mu.acc < s.mu.settings.n → s.mu.owed < 4095 →
      exec (.encoderCount inputs) s = .next (s.withMu { s.mu with
        reference := inputs, acc := s.mu.acc + s.mu.settings.d - s.mu.settings.n, owed := s.mu.owed + 1 }))
    ∧ (s.mu.acc < s.mu.settings.n → 4095 ≤ s.mu.owed → ∃ t, exec (.encoderCount inputs) s = .next t
      ∧ t.mu = { s.mu with
          reference := inputs, acc := s.mu.acc + s.mu.settings.d - s.mu.settings.n, overruns := s.mu.overruns + 1 }
      ∧ t.ru = (if s.ru.lock = .off then s.ru else { s.ru with lock := .hunt, chain := none })
      ∧ PendingUp .encoder s t
      ∧ (∀ p, (t.port p).pendingSet = if (s.port p).isUp then
            let set := NoticeSet.add (s.port p).pendingSet .encoder
            if s.ru.lock = .locked ∨ s.ru.lock = .coast then NoticeSet.add set .lock else set
          else (s.port p).pendingSet)
      ∧ State.Agree [.mu, .ru, .windows, .ports] s t)

/-- A change of both encoder inputs takes no count: it is counted, ENCODER is raised and the new state is the reference. At a port whose
link is sending a frame the raising shows whole: nothing changes where ENCODER is pending already; else it is pending, and where the mask
enables it, it is named in the waiting notice frame, old or new. -/
def Obligations.EncoderError : Prop :=
  ∀ s : State, ∃ t, exec (.encoderCount (oppositeInputs s.mu.reference)) s = .next t
    ∧ t.mu = { s.mu with reference := oppositeInputs s.mu.reference, encoderErrors := s.mu.encoderErrors + 1 }
    ∧ RaisedUp .encoder s t
    ∧ (Settled s → ∀ p, let c := s.port p
      c.isUp = true → c.outbound.isSome = true →
      (NoticeSet.has c.pendingSet .encoder = true → t.port p = c)
      ∧ (NoticeSet.has c.pendingSet .encoder = false → NoticeSet.has c.mask .encoder = false →
        t.port p = { c with pendingSet := NoticeSet.add c.pendingSet .encoder })
      ∧ (NoticeSet.has c.pendingSet .encoder = false → NoticeSet.has c.mask .encoder = true →
        t.port p = { c with
          pendingSet := NoticeSet.add c.pendingSet .encoder
          notice := match c.notice with
            | none => some (NoticeSet.add 0 .encoder)
            | some kinds => some (NoticeSet.add kinds .encoder) }))
    ∧ State.Agree [.mu, .windows, .ports] s t

/-- A due line: the WLN and the speed gate count go up by one, the stop timer restarts with the stop time in force, the state is MOVING
with MOTION raised where it was STOPPED, and the gate closes for the minimum spacing, clearing the repeat-start flag, or skips the line
with SKIP raised and the flag set by an opening. The line goes with its WLN to the Repeat Unit (`repeatDueLine`), the Marker Unit
(`markerDueLine`) and the Leveling Engine (`levelSpan`); on an open gate the trigger, with the repeat-start mark, goes from the state
that these leave to all lanes (`triggerLanes`), and on a closed gate nothing else happens. The order of the receivers is the
model's, log 10. -/
def Obligations.DueLine : Prop :=
  ∀ s : State, let w := s.mu.wln + 1
    let t := settle (dueLine s)
    t.ru = (repeatDueLine w s).ru
    ∧ t.mu = { s.mu with
        wln := w
        gateCount := s.mu.gateCount + 1
        stopTimer := some (s.now + s.mu.settings.stopTime * 100000)
        motion := .moving
        gate := match s.mu.gate with
          | none => some (s.now + s.mu.settings.spacing)
          | some g => some g
        skipped := if s.mu.gate.isSome then s.mu.skipped + 1 else s.mu.skipped
        repeatStart := if s.mu.gate.isSome then s.mu.repeatStart || decide (t.ru.newest.start = w) else false }
    ∧ t.mku = (markerDueLine w s).mku
    ∧ (∃ u : State, u.mu = t.mu ∧ u.ru = t.ru ∧ u.mku = t.mku
      ∧ u.le = (levelSpan w s).le ∧ u.lanes = (levelSpan w s).lanes
      ∧ (∀ p, ∃ pending notice, u.port p = { s.port p with pendingSet := pending, notice := notice })
      ∧ State.Agree [.mu, .ru, .lanes, .le, .ports, .mku] s u
      ∧ (s.mu.gate = none → t = settle (triggerLanes w (s.mu.repeatStart || decide (u.ru.newest.start = w)) u))
      ∧ (s.mu.gate.isSome = true → t = settle u))
    ∧ (s.mu.motion = .stopped → PendingUp .motion s t)
    ∧ (s.mu.gate.isSome = true → PendingUp .skip s t)
    ∧ (s.mu.gate.isSome = true → t.dram = s.dram)
    ∧ t.pending = s.pending ∧ t.now = s.now ∧ t.shared = s.shared

/-- The gate opens at its reopening time; a speed gate ends with the estimate at the gate count times 10 and a new gate of 100 ms; the
stop timer's expiry leaves the state STOPPED and the timer stopped, seals the filling bands with STOP_SEALED in ascending lane number,
each seal whole before the next, and raises MOTION; no lane then has a filling band, and every band that was FILLING is freed or HELD with
STOP_SEALED. The clock that moves forward to the stored time is the model's, log 3. -/
def Obligations.MotionTimers : Prop :=
  (∀ (s : State) (due : Nat), s.mu.gate = some due →
    exec .gateReopen s = .next ((s.withNow (max s.now due)).withMu { s.mu with gate := none }))
  ∧ (∀ s : State, exec .speedGateEnd s = .next ((s.withNow (max s.now s.mu.speedGateEnd)).withMu { s.mu with
      speed := s.mu.gateCount.toNat * 10, gateCount := 0, speedGateEnd := s.mu.speedGateEnd + 10000000 }))
  ∧ ∀ (s : State) (due : Nat), SlotsOk s → s.mu.stopTimer = some due → ∃ t, exec .stopTimerExpiry s = .next t
    ∧ t.now = max s.now due
    ∧ t.mu = { s.mu with motion := .stopped, stopTimer := none }
    ∧ (let stopped := (s.withNow (max s.now due)).withMu { s.mu with motion := .stopped, stopTimer := none }
      let v := [Lane.l0, .l1, .l2, .l3, .l4, .l5, .l6, .l7].foldl (fun s k => sealBand k true s) stopped
      ∃ u, t = settle u ∧ RaisedUp .motion v u ∧ State.Agree [.ports] v u
        ∧ ∀ p, ∃ notice, u.port p = { v.port p with pendingSet := (u.port p).pendingSet, notice := notice })
    ∧ (∀ k, t.bsc.filling.get k = none)
    ∧ (∀ slot b, s.band slot = some b → b.sealing = none →
        slot ∈ t.bsc.free ∨ ∃ r, t.band slot = some { b with sealing := some r } ∧ r.stopSealed = true)
    ∧ PendingUp .motion s t
    ∧ State.Agree [.now, .mu, .bsc, .windows, .ports] s t

/-- SET_MOTION from the claim holder: a record with N and D in 1 to 65535, N at most D, the spacing in 200 to 100000 units and the stop
time in 10 to 10000 ms is stored whole, A cleared where N or D changes; any other record is answered RANGE and changes nothing. -/
def Obligations.SetMotionTaken : Prop :=
  ∀ (s : State) (p : Port) (tag : Byte) (rest : List RequestFrame) (r : MotionSettings),
    Settled s → Taken s p ((Request.setMotion r).frame tag) rest → (Request.setMotion r).fits → s.shared.holder = some p →
    exec (.setMotion p) s = .next (
      if 1 ≤ r.n ∧ r.n ≤ 65535 ∧ 1 ≤ r.d ∧ r.d ≤ 65535 ∧ r.n ≤ r.d ∧ 200 ≤ r.spacing ∧ r.spacing ≤ 100000
          ∧ 10 ≤ r.stopTime ∧ r.stopTime ≤ 10000 then
        answered p rest (responseTo (.setMotion r) tag { code := .done }) (s.withMu { s.mu with
          settings := r
          acc := if r.n = s.mu.settings.n ∧ r.d = s.mu.settings.d then s.mu.acc else 0 })
      else answered p rest (responseTo (.setMotion r) tag { code := .range }) s)

/-- POWER_ON puts every block at the values of its reset table, whatever the state: the encoder levels become the reference state,
every port is DOWN with its link state as it was, the marker counters are 0, and the store's bytes stay; the model's clock runs on
(log 3, log 7). -/
def Obligations.PowerOnValues : Prop :=
  ∀ (inputs : EncInputs) (s : State), ∃ t, exec (.powerOn inputs) s = .next t
    ∧ BlocksReset inputs s t
    ∧ (∀ p, t.port p = emptyPort .down (s.port p).linkUp)
    ∧ ∀ p, t.mku.fired.get p = 0 ∧ t.mku.cancelled.get p = 0

/-! ## Repeat Unit -/

/-- A due line without a pending restart: below the end of the repeat the phase goes on by 256, and at the end the newest entry is closed
with its length and a repeat with the next RN opens at the due line at IRL 0, with S 0 and the remainder as phase. The other log entries
stay, but for the oldest, which leaves a log of 16. The lock and the misses stay at an opening, except where pending settings are applied:
HUNT with misses 0 where tracking comes on, OFF where it goes off; the chain is then emptied, by a record equal to the settings in force
too (the model's choice between R37 and R38, log 27). The lock after that is the new entry's lock at start, LOCK is raised at a change of
it, and REPEAT is raised. The window-end check: in LOCKED or COAST the line at IRL M + Wc + 1 of a repeat without its mark counts a miss,
and the lock goes to HUNT with the chain empty at Kmiss misses and to COAST before; on any other line of the repeat the misses and the
lock stay. In HUNT an expired chain is emptied, and otherwise it stays. LOCK is raised exactly at a change of the lock. -/
def Obligations.PhaseAdvance : Prop :=
  ∀ (s : State) (w : Line), s.ru.restart = none → let t := repeatDueLine w s
    ((s.ru.phase : Int) + 256 < s.ru.settings.length + 256 * s.ru.stretch →
      t.ru.phase = s.ru.phase + 256 ∧ t.ru.entries = s.ru.entries ∧ t.ru.stretch = s.ru.stretch ∧ t.ru.accepted = s.ru.accepted
      ∧ t.ru.settings = s.ru.settings
      ∧ (let missed := (s.ru.lock = .locked ∨ s.ru.lock = .coast) ∧ s.ru.accepted = false
            ∧ s.ru.newest.firstIrl + (w - s.ru.newest.start).toNat = s.ru.settings.m + s.ru.settings.wc + 1
        (missed → t.ru.misses = s.ru.misses + 1
          ∧ (s.ru.settings.kmiss ≤ s.ru.misses + 1 → t.ru.lock = .hunt ∧ t.ru.chain = none)
          ∧ (s.ru.misses + 1 < s.ru.settings.kmiss → t.ru.lock = .coast ∧ t.ru.chain = s.ru.chain))
        ∧ (¬missed → t.ru.misses = s.ru.misses ∧ t.ru.lock = s.ru.lock
          ∧ (ChainExpired w s → t.ru.chain = none) ∧ (¬ChainExpired w s → t.ru.chain = s.ru.chain)))
      ∧ (t.ru.lock ≠ s.ru.lock → RaisedUp .lock s t) ∧ (t.ru.lock = s.ru.lock → t.ports = s.ports))
    ∧ (s.ru.settings.length + 256 * s.ru.stretch ≤ (s.ru.phase : Int) + 256 →
      (t.ru.phase : Int) = s.ru.phase + 256 - (s.ru.settings.length + 256 * s.ru.stretch)
      ∧ t.ru.accepted = false ∧ t.ru.newest.firstIrl = 0 ∧ t.ru.newest.markIrl = none ∧ t.ru.newest.partialStart = false
      ∧ RepeatOpened w false s t)

/-- A due line with a pending restart. In a repeat that goes on, the newest entry is closed with IRREGULAR_END and a repeat opens at the
due line; where the phase advance has just opened a repeat at the due line, the entry before it is closed without IRREGULAR_END and the
repeat just opened is relabelled, no second one opened. Either way the one new repeat has the next RN and the restart's first IRL, which
is 0 for REQUESTED and M + 1 with the mark accepted for ACQUISITION under tracking, by the settings then in force; the phase is 256 times
it, S is 0, the lock at start is the lock as it now stands, REPEAT is raised, and the restart is cleared. The other log entries, the lock,
the misses and the chain are as at every opening (a record equal to the settings in force empties the chain: the model's choice between
R37 and R38, log 27). -/
def Obligations.RestartClosesEarly : Prop :=
  ∀ (s : State) (w : Line) (kind : RestartKind), s.ru.restart = some kind → let t := repeatDueLine w s
    let r := s.ru.pendingSettings.getD s.ru.settings
    let first := if kind = .acquisition ∧ r.tracking = true then r.m + 1 else 0
    let opened := fun irregular : Bool =>
      t.ru.restart = none ∧ t.ru.phase = 256 * first ∧ t.ru.accepted = decide (0 < first)
      ∧ t.ru.newest.firstIrl = first ∧ t.ru.newest.partialStart = decide (0 < first)
      ∧ t.ru.newest.markIrl = (if 0 < first then some r.m else none)
      ∧ RepeatOpened w irregular s t
    (s.ru.newest.start ≠ w → (s.ru.phase : Int) + 256 < s.ru.settings.length + 256 * s.ru.stretch → opened true)
    ∧ (s.ru.settings.length + 256 * s.ru.stretch ≤ (s.ru.phase : Int) + 256 → opened false)

/-- A mark edge in HUNT: the chain goes on by one where the edge lies one repeat after the last candidate within the capture window,
and restarts at 1 otherwise; at Qacq the ACQUISITION restart is pending, the lock is LOCKED, the miss count 0 and the chain empty. A
transition in the other direction, or with the lock OFF, has no effect. -/
def Obligations.MarkEdgeHunt : Prop :=
  ∀ (s : State) (edge : MarkDirection), Settled s →
    (edge ≠ s.ru.settings.edge ∨ s.ru.lock = .off → exec (.markEdge edge) s = .next s)
    ∧ (edge = s.ru.settings.edge → s.ru.lock = .hunt →
      let length := match s.ru.chain with
        | none => 1
        | some c => if (256 * lineDiff s.mu.wln c.last - s.ru.settings.length).natAbs ≤ 256 * s.ru.settings.wc then c.length + 1 else 1
      (length < s.ru.settings.qacq → exec (.markEdge edge) s = .next (s.withRu { s.ru with
          chain := some { length := length, last := s.mu.wln } }))
      ∧ (s.ru.settings.qacq ≤ length → ∃ t, exec (.markEdge edge) s = .next t
          ∧ t.ru = { s.ru with chain := none, restart := some .acquisition, misses := 0, lock := .locked }
          ∧ RaisedUp .lock s t ∧ State.Agree [.ru, .windows, .ports] s t))

/-- A mark edge in LOCKED or COAST: within M − Wc to M + Wc of a repeat with no accepted mark it sets the stretch to its error clamped
to the correction limit, goes to LOCKED and clears the misses; otherwise it is counted as stray and changes nothing else. -/
def Obligations.MarkEdgeWindow : Prop :=
  ∀ s : State, Settled s → s.ru.lock = .locked ∨ s.ru.lock = .coast →
    let r := s.ru.settings
    let i := s.ru.newest.firstIrl + (s.mu.wln - s.ru.newest.start).toNat
    let e := max (-(r.cmax : Int)) (min (r.cmax : Int) ((i : Int) - r.m))
    ((r.m : Int) - r.wc ≤ i → i ≤ r.m + r.wc → s.ru.accepted = false → ∃ t, exec (.markEdge r.edge) s = .next t
      ∧ t.ru = { s.ru with stretch := e, accepted := true, misses := 0, lock := .locked,
                           newest := { s.ru.newest with markIrl := some i, stretch := e } }
      ∧ (s.ru.lock = .coast → RaisedUp .lock s t) ∧ (s.ru.lock = .locked → t.ports = s.ports)
      ∧ State.Agree [.ru, .windows, .ports] s t)
    ∧ ((i : Int) < (r.m : Int) - r.wc ∨ r.m + r.wc < i ∨ s.ru.accepted = true →
      exec (.markEdge r.edge) s = .next (s.withRu { s.ru with strays := s.ru.strays + 1 }))

/-- CHAIN_EXPIRY: in HUNT the mark chain is emptied when the WLN lies more than repeat lines + Wc beyond the last candidate, and
nothing else changes; otherwise, in another lock state or with the chain empty too, nothing changes. That the check stands also as a command is the model's choice, log 12. -/
def Obligations.ChainExpiryTaken : Prop :=
  ∀ s : State,
    (∀ c, s.ru.lock = .hunt → s.ru.chain = some c → exec .chainExpiry s = .next (
      if (s.ru.settings.length / 256 + s.ru.settings.wc : Int) < lineDiff s.mu.wln c.last then s.withRu { s.ru with chain := none } else s))
    ∧ (s.ru.lock ≠ .hunt ∨ s.ru.chain = none → exec .chainExpiry s = .next s)

/-- REPEAT_RESTART from the claim holder: the restart is pending as REQUESTED, the chain is empty and the lock is HUNT with tracking
on and OFF with it off; everything else of the Repeat Unit stays. -/
def Obligations.RepeatRestartTaken : Prop :=
  ∀ (s : State) (p : Port) (tag : Byte) (rest : List RequestFrame),
    Settled s → Taken s p (Request.repeatRestart.frame tag) rest → s.shared.holder = some p →
    let l := if s.ru.settings.tracking then LockState.hunt else LockState.off
    ∃ t, exec (.repeatRestart p) s = .next t
      ∧ t.ru = { s.ru with restart := some .requested, chain := none, lock := l }
      ∧ Delivered s t p rest (responseTo .repeatRestart tag { code := .done })
      ∧ (l ≠ s.ru.lock → RaisedUp .lock s t) ∧ (l = s.ru.lock → ∀ q, (t.port q).pendingSet = (s.port q).pendingSet)
      ∧ State.Agree [.ru, .windows, .ports] s t

/-- SET_REPEAT from the claim holder: a record in range becomes the pending repeat settings, whole, and nothing in force changes; a
record out of range is answered RANGE and changes nothing. -/
def Obligations.SetRepeatTaken : Prop :=
  ∀ (s : State) (p : Port) (tag : Byte) (rest : List RequestFrame) (r : RepeatSettings),
    Settled s → Taken s p ((Request.setRepeat r).frame tag) rest → (Request.setRepeat r).fits → s.shared.holder = some p →
    exec (.setRepeat p) s = .next (
      if 131072 ≤ r.length ∧ r.length ≤ 51200000 ∧ r.m ≤ r.length / 256 - 1 ∧ 1 ≤ r.wc ∧ r.wc ≤ 4095 ∧ r.cmax ≤ 255
          ∧ 1 ≤ r.qacq ∧ r.qacq ≤ 4 ∧ 1 ≤ r.kmiss ∧ r.kmiss ≤ 15
          ∧ r.cmax ≤ r.wc ∧ r.wc ≤ r.m ∧ r.m + r.wc + r.cmax ≤ r.length / 256 - 2 then
        answered p rest (responseTo (.setRepeat r) tag { code := .done }) (s.withRu { s.ru with pendingSettings := some r })
      else answered p rest (responseTo (.setRepeat r) tag { code := .range }) s)

/-! ## Lane Front Ends -/

/-- SET_LANE from the claim holder: a record in range makes all four pending items of its lane present with its values; one out of
range, or naming no lane, is answered RANGE and changes nothing. -/
def Obligations.SetLaneTaken : Prop :=
  ∀ (s : State) (p : Port) (tag : Byte) (rest : List RequestFrame) (f : LaneFields),
    Settled s → Taken s p ((Request.setLane f).frame tag) rest → (Request.setLane f).fits → s.shared.holder = some p →
    exec (.setLane p) s = .next (
      match laneOfNumber f.lane with
      | none => answered p rest (responseTo (.setLane f) tag { code := .range }) s
      | some k =>
        if 512 ≤ f.width ∧ f.width ≤ 8192 ∧ f.width % 64 = 0 ∧ f.base ≤ 65535 ∧ f.base + f.width ≤ 65536
            ∧ f.offset ≤ 4095 ∧ f.fill ≤ 255 ∧ f.flat ≤ 4095 then
          answered p rest (responseTo (.setLane f) tag { code := .done }) (s.setLane k { s.lane k with
            pendingMode := some (f.mode, f.source)
            pendingOffset := some f.offset
            pendingWidth := some (f.width, f.base)
            pendingImmediate := some { fill := BitVec.ofNat 8 f.fill, flat := BitVec.ofNat 12 f.flat, correction := f.correction } })
        else answered p rest (responseTo (.setLane f) tag { code := .range }) s)

/-- With an empty FIFO a line from the link is unsolicited, which only counts it, and a damaged frame only counts as a frame error, in
every lane state. -/
def Obligations.ArrivalOnEmptyFifo : Prop :=
  ∀ (s : State) (k : Lane) (x : Sample) (xs : List Sample), Settled s → (s.lane k).linkUp = true → (s.lane k).fifo = [] →
    exec (.lineArrival k (.good (x :: xs))) s = .next (s.setLane k { s.lane k with
      counters := { (s.lane k).counters with unsolicited := (s.lane k).counters.unsolicited + 1 } })
    ∧ exec (.lineArrival k .damaged) s = .next (s.setLane k { s.lane k with
      counters := { (s.lane k).counters with frameError := (s.lane k).counters.frameError + 1 } })

/-- A camera line that a lane in RUN files into its filling band: paired with the oldest FIFO entry, stamped with the entry's WLN less its
offset, looked up in the repeat log, cut and counted against the width, corrected, and written at slot × 524288 + slot line × 8192; the
band's last IRL and presence set take it. That clause leaves to the others pending items, commits, a search, a drain, a new or completed
band. A line that finds an entry, or a damaged frame counted as a frame error, is handled with the oldest entry, which leaves the FIFO;
the drain count falls, and where that brings it to 0 the filling band is sealed after the line event. A line event first applies the
immediate item. In RUN a line whose stamp is not later than the last stamp only counts a realign discard, and one with no log entry only
counts as stale, captured or missing and in FAULT too (the model's reading of R56, log 26). Any other is placed: last stamp and band RN
are set, the width and column base item applies where the RN differs from the band RN, a camera line is counted long or short against
that width, and the line, corrected where it has samples (a test line formed with that width: the model's reading, log 14), goes to the Band Store
Controller (`place`) and then to the Leveling Engine (`levelLine`). -/
def Obligations.CameraLineFiled : Prop :=
  (∀ (s : State) (k : Lane) (x : Sample) (xs : List Sample) (e : FifoEntry) (rest : List FifoEntry) (le : LogEntry) (slot : Nat) (b : Band),
      Settled s → (s.lane k).linkUp = true → (s.lane k).fifo = e :: rest → e.mode = .run → (s.lane k).drain = 0 →
      (s.lane k).pendingImmediate = none → (s.lane k).pendingWidth = none → s.cb.commit = none → (∀ y, s.le ≠ .searching y) →
      let stamp := e.wln - BitVec.ofNat 32 e.offset
      (∀ last, (s.lane k).lastStamp = some last → 0 < lineDiff stamp last) →
      s.ru.lookup stamp = some le →
      let irl := le.firstIrl + (stamp - le.start).toNat
      s.bsc.filling.get k = some slot → s.band slot = some b → b.sealing = none → b.rn = le.rn → b.block = irl / 64 → irl % 64 ≠ 63 →
      b.width = (s.lane k).width → b.base = (s.lane k).base →
      let kept := (x :: xs).take b.width
      let bytes := correctLine (s.cb.tables.get k) (s.lane k).immediate.correction kept
      let counters := (s.lane k).counters
      exec (.lineArrival k (.good (x :: xs))) s = .next
        ((((s.setLane k { s.lane k with
          fifo := rest
          lastStamp := some stamp
          bandRn := some le.rn
          counters := if b.width < xs.length + 1 then { counters with long := counters.long + 1 }
            else if xs.length + 1 < b.width then { counters with short := counters.short + 1 } else counters }).withBsc
          { s.bsc with bands := tablePut s.bsc.bands slot { b with lastIrl := irl, presence := b.presence ++ [(irl, kept.length)] } })).withDram
            (dramWrite s.dram (slot * 524288 + (irl - 64 * b.block) * 8192) bytes)))
  ∧ (∀ (s : State) (k : Lane) (x : Sample) (xs : List Sample), (s.lane k).linkUp = true → (s.lane k).fifo ≠ [] →
    exec (.lineArrival k (.good (x :: xs))) s = .next (settle (removeOldest k (.camera (x :: xs)) s))
    ∧ exec (.lineArrival k .damaged) s = .next (settle (removeOldest k .missing (s.setLane k { s.lane k with
      counters := { (s.lane k).counters with frameError := (s.lane k).counters.frameError + 1 } }))))
  ∧ (∀ (s : State) (k : Lane) (body : LineBody) (e : FifoEntry) (rest : List FifoEntry), (s.lane k).fifo = e :: rest →
    let u := lineEvent k e.wln e.offset e.mode body (s.setLane k { s.lane k with fifo := rest, drain := (s.lane k).drain - 1 })
    ((s.lane k).drain = 1 → removeOldest k body s = sealBand k false u)
    ∧ ((s.lane k).drain ≠ 1 → removeOldest k body s = u))
  ∧ (∀ (s : State) (k : Lane) (w : Line) (offset : Nat) (mode : ActiveMode) (body : LineBody) (item : ImmediateSettings),
    (s.lane k).pendingImmediate = some item →
    lineEvent k w offset mode body s
      = lineEvent k w offset mode body (s.setLane k { s.lane k with immediate := item, pendingImmediate := none }))
  ∧ ∀ (s : State) (k : Lane) (w : Line) (offset : Nat) (body : LineBody), (s.lane k).pendingImmediate = none →
    (∀ c, s.cb.commit = some c → c.lane ≠ k) → let l := s.lane k
    let stamp := w - BitVec.ofNat 32 offset
    (∀ last, l.lastStamp = some last → lineDiff stamp last ≤ 0 →
      lineEvent k w offset .run body s = s.setLane k { l with counters := { l.counters with realign := l.counters.realign + 1 } })
    ∧ ((∀ last, l.lastStamp = some last → 0 < lineDiff stamp last) →
      (s.ru.lookup stamp = none →
        lineEvent k w offset .run body s = s.setLane k { l with counters := { l.counters with stale := l.counters.stale + 1 } })
      ∧ ∀ le, s.ru.lookup stamp = some le →
        let width := if l.bandRn = some le.rn then l.width else (l.pendingWidth.map (·.1)).getD l.width
        let base := if l.bandRn = some le.rn then l.base else (l.pendingWidth.map (·.2)).getD l.base
        let v := { l with
          lastStamp := some stamp, bandRn := some le.rn, width := width, base := base
          pendingWidth := if l.bandRn = some le.rn then l.pendingWidth else none
          counters := match body with
            | .camera xs =>
              if width < xs.length then { l.counters with long := l.counters.long + 1 }
              else if xs.length < width then { l.counters with short := l.counters.short + 1 } else l.counters
            | .missing => l.counters
            | .test => l.counters }
        let bytes := (body.samples v w).map fun xs => correctLine (s.cb.tables.get k) l.immediate.correction (xs.take width)
        lineEvent k w offset .run body s = levelLine k stamp offset bytes (place {
          lane := k, samples := bytes, stamp := stamp, rn := le.rn, irl := le.firstIrl + (stamp - le.start).toNat, firstIrl := le.firstIrl
          width := width, base := base, camera := decide (l.source = .camera) } (s.setLane k v)))

/-- A camera line under an entry recorded in CHECK goes to the pattern checker alone: IN_STEP it is compared with the expected base
over the width and its mismatches are counted, more than 64 of them returning the checker to HUNTING; HUNTING, a clean line counts the
clean run up to 3. The line is judged for length; nothing is stamped or filed. A missing line under such an entry, a damaged frame's
among them, sets the clean run to 0 in HUNTING and adds one to the expected base IN_STEP, and is judged for nothing. That the expected
base stays as it was while HUNTING, and the clean run while IN_STEP, is the model's reading, log 17. -/
def Obligations.CheckLineJudged : Prop :=
  (∀ (s : State) (k : Lane) (x : Sample) (xs : List Sample) (e : FifoEntry) (rest : List FifoEntry),
    Settled s → (s.lane k).linkUp = true → (s.lane k).fifo = e :: rest → e.mode = .check → (s.lane k).drain = 0 →
    (s.lane k).pendingImmediate = none → s.cb.commit = none →
    let l := s.lane k
    let differ := fun base : Sample => ((List.range l.width).filter fun q => (x :: xs)[q]? ≠ some (BitVec.ofNat 12 q + base)).length
    let judged := if l.width < xs.length + 1 then { l.counters with long := l.counters.long + 1 }
      else if xs.length + 1 < l.width then { l.counters with short := l.counters.short + 1 } else l.counters
    (l.checker.inStep = true →
      exec (.lineArrival k (.good (x :: xs))) s = .next (s.setLane k { l with
        fifo := rest
        checker := if 64 < differ l.checker.expected then { l.checker with inStep := false, cleanRun := 0 }
          else { l.checker with expected := l.checker.expected + 1 }
        counters :=
          let c := { judged with checkError := judged.checkError + BitVec.ofNat 32 (differ l.checker.expected) }
          if 64 < differ l.checker.expected then { c with outOfStep := c.outOfStep + 1 } else c }))
    ∧ (l.checker.inStep = false →
      exec (.lineArrival k (.good (x :: xs))) s = .next (s.setLane k { l with
        fifo := rest
        counters := judged
        checker := if differ x = 0 then
            if l.checker.cleanRun = 2 then { inStep := true, cleanRun := 3, expected := x + 1 }
            else { l.checker with cleanRun := l.checker.cleanRun + 1 }
          else { l.checker with cleanRun := 0 } })))
  ∧ (∀ (s : State) (k : Lane) (e : FifoEntry) (rest : List FifoEntry),
    Settled s → (s.lane k).linkUp = true → (s.lane k).fifo = e :: rest → e.mode = .check → (s.lane k).drain = 0 →
    (s.lane k).pendingImmediate = none → s.cb.commit = none → let l := s.lane k
    exec (.lineArrival k .damaged) s = .next (s.setLane k { l with
      fifo := rest
      counters := { l.counters with frameError := l.counters.frameError + 1 }
      checker := if l.checker.inStep then { l.checker with expected := l.checker.expected + 1 } else { l.checker with cleanRun := 0 } }))
  ∧ ∀ (s : State) (k : Lane) (w : Line) (offset : Nat), (s.lane k).pendingImmediate = none →
    (∀ c, s.cb.commit = some c → c.lane ≠ k) → let l := s.lane k
    (l.checker.inStep = true → lineEvent k w offset .check .missing s
      = s.setLane k { l with checker := { l.checker with expected := l.checker.expected + 1 } })
    ∧ (l.checker.inStep = false → lineEvent k w offset .check .missing s
      = s.setLane k { l with checker := { l.checker with cleanRun := 0 } })

/-- A trigger reaches all eight lanes, in ascending number (log 11), each applying its items first where it carries the repeat-start mark.
The trigger then: an OFF lane passes it by; a lane in RUN or CHECK with CAMERA source and room appends an entry of the WLN, the offset and
the mode in force; a full FIFO first loses its oldest entry (`loseOldest`), as a missing line in its recorded mode, counted as no-
response; with RAMP or FLAT source the lane handles the test line of the width in force at once as a line event; in FAULT it handles a
missing line in its remembered mode. The items: the offset item is taken; the mode and source item gives the new state, remembered mode or
FAULT, with LANE raised at entry to and exit from FAULT and a pending commit completed at a change to OFF or FAULT; entering RUN clears
last stamp and band RN, entering CHECK sends the checker to HUNTING, leaving RUN sets the drain count to the FIFO's depth, sealing the
filling band at once on an empty FIFO; a change of source handles each entry, oldest first and under the old source (log 13), as a missing
line counted as no-response, ends the drain and seals the filling band. -/
def Obligations.TriggerTaken : Prop :=
  (∀ (s : State) (k : Lane) (w : Line),
      ((s.lane k).state = .off → handleTrigger k w s = s)
      ∧ ∀ m, (s.lane k).state = .active m → (s.lane k).source = .camera →
        ((s.lane k).fifo.length < 4 → handleTrigger k w s = s.setLane k { s.lane k with
          fifo := (s.lane k).fifo ++ [{ wln := w, offset := (s.lane k).offset, mode := m }] })
        ∧ ((s.lane k).fifo.length = 4 → let t := handleTrigger k w s
          let u := loseOldest k s
          t = u.setLane k { u.lane k with fifo := (u.lane k).fifo ++ [{ wln := w, offset := (s.lane k).offset, mode := m }] }
          ∧ (t.lane k).fifo = (s.lane k).fifo.tail ++ [{ wln := w, offset := (s.lane k).offset, mode := m }]
          ∧ (t.lane k).counters.noResponse = (s.lane k).counters.noResponse + 1
          ∧ (∀ j, j ≠ k → t.lane j = s.lane j)
          ∧ State.Agree lineParts s t))
  ∧ (∀ (s : State) (w : Line) (mark : Bool), triggerLanes w mark s
    = [Lane.l0, .l1, .l2, .l3, .l4, .l5, .l6, .l7].foldl (fun s k => handleTrigger k w (if mark then applyRepeatStart k s else s)) s)
  ∧ (∀ (s : State) (k : Lane) (w : Line) (m : ActiveMode),
    ((s.lane k).state = .active m → (s.lane k).source ≠ .camera →
      handleTrigger k w s = lineEvent k w (s.lane k).offset m .test s)
    ∧ ((s.lane k).state = .fault m → handleTrigger k w s = lineEvent k w (s.lane k).offset m .missing s))
  ∧ (∀ (l : LaneFrontEnd) (w : Line),
    (l.source = .ramp → LineBody.test.samples l w = some ((List.range l.width).map fun p => BitVec.ofNat 12 ((p + w.toNat) % 256 * 16)))
    ∧ (l.source = .flat → LineBody.test.samples l w = some (List.replicate l.width l.immediate.flat)))
  ∧ (∀ (s : State) (k : Lane), loseOldest k s =
    let u := removeOldest k .missing s
    u.setLane k { u.lane k with counters := { (u.lane k).counters with noResponse := (u.lane k).counters.noResponse + 1 } })
  ∧ ∀ (s : State) (k : Lane), let l := s.lane k
    let t := applyRepeatStart k s
    (l.pendingMode = none → t = s.setLane k { l with offset := l.pendingOffset.getD l.offset, pendingOffset := none })
    ∧ ∀ m src, l.pendingMode = some (m, src) →
      let new := match m, l.state with
        | .off, _ => LaneState.off
        | .active a, .fault _ => .fault a
        | .active a, .off => if l.linkUp then .active a else .fault a
        | .active a, .active _ => .active a
      (t.lane k).state = new ∧ (t.lane k).source = src ∧ (t.lane k).offset = l.pendingOffset.getD l.offset ∧ (t.lane k).pendingMode = none
      ∧ ((∃ a, l.state = .fault a) ∧ new = .off ∨ l.state = .off ∧ (∃ a, new = .fault a) → PendingUp .lane s t)
      ∧ (l.state ≠ new → (∀ a, new ≠ .active a) → t.cb = (completeCommit k s).cb)
      ∧ (new.mode = some .check → l.state.mode ≠ some .check → (t.lane k).checker.inStep = false ∧ (t.lane k).checker.cleanRun = 0)
      ∧ (src = l.source → (t.lane k).fifo = l.fifo ∧ (t.lane k).counters = l.counters
        ∧ (new.mode = some .run → l.state.mode ≠ some .run → (t.lane k).lastStamp = none ∧ (t.lane k).bandRn = none)
        ∧ (l.state.mode = some .run → new.mode ≠ some .run →
          (t.lane k).drain = l.fifo.length ∧ (l.fifo = [] → t.bsc.filling.get k = none))
        ∧ (l.state.mode = new.mode →
          (t.lane k).lastStamp = l.lastStamp ∧ (t.lane k).bandRn = l.bandRn ∧ (t.lane k).drain = l.drain ∧ t.bsc = s.bsc))
      ∧ (src ≠ l.source → (t.lane k).fifo = [] ∧ (t.lane k).drain = 0 ∧ t.bsc.filling.get k = none
        ∧ (t.lane k).counters.noResponse = l.counters.noResponse + BitVec.ofNat 32 l.fifo.length)
      ∧ (let entersRun := new.mode = some .run ∧ l.state.mode ≠ some .run
        let entersCheck := new.mode = some .check ∧ l.state.mode ≠ some .check
        let leavesRun := l.state.mode = some .run ∧ new.mode ≠ some .run
        ∃ c v, c.lane k = { l with
            state := new, offset := l.pendingOffset.getD l.offset, pendingOffset := none, pendingMode := none
            lastStamp := if entersRun then none else l.lastStamp, bandRn := if entersRun then none else l.bandRn
            checker := if entersCheck then { l.checker with inStep := false, cleanRun := 0 } else l.checker
            drain := if leavesRun then l.fifo.length else l.drain }
          ∧ (∀ j, j ≠ k → ∃ offset, c.lane j = { s.lane j with pendingOffset := offset })
          ∧ (¬leavesRun → c.le = s.le ∧ ∀ j, j ≠ k → c.lane j = s.lane j)
          ∧ (l.state = new ∨ (∃ a, new = .active a) → c.cb = s.cb)
          ∧ (l.state ≠ new → (∀ a, new ≠ .active a) → c.cb = (completeCommit k s).cb)
          ∧ State.Agree [.lanes, .cb, .le, .ports] s c
          ∧ v = (if leavesRun ∧ l.fifo = [] then sealBand k false c else c)
          ∧ (src = l.source → t = v)
          ∧ (src ≠ l.source → let u := l.fifo.foldl (fun s _ => loseOldest k s) v
            t = sealBand k false (u.setLane k { u.lane k with drain := 0, source := src })))
      ∧ State.Agree lineParts s t

/-- A lane link loss: the link state is down, the loss counted and the checker HUNTING with clean run 0. In RUN or CHECK the lane goes to
FAULT with the mode remembered, its pending commit completes, and LANE is raised; an OFF lane keeps its state and raises no LANE. Then, in
either, the FIFO is emptied, each entry oldest first handled as a missing line, without a no-response count. That the expected base stays
is the model's reading, log 17. A link return: a lane in FAULT goes to its remembered mode with LANE raised, keeping the rest of its
state; an OFF lane only takes its link state up. -/
def Obligations.LaneLinks : Prop :=
  (∀ (s : State) (k : Lane) (m : ActiveMode), (s.lane k).linkUp = true → (s.lane k).state = .active m →
    ∃ t, exec (.laneLinkLoss k) s = .next t
      ∧ (t.lane k).linkUp = false ∧ (t.lane k).state = .fault m ∧ (t.lane k).fifo = []
      ∧ (t.lane k).counters.linkLoss = (s.lane k).counters.linkLoss + 1
      ∧ (t.lane k).counters.noResponse = (s.lane k).counters.noResponse
      ∧ (t.lane k).checker.inStep = false ∧ (t.lane k).checker.cleanRun = 0
      ∧ (t.lane k).source = (s.lane k).source ∧ (t.lane k).offset = (s.lane k).offset
      ∧ PendingUp .lane s t
      ∧ (∃ v, t = settle ((s.lane k).fifo.foldl (fun s _ => removeOldest k .missing s) v)
        ∧ v.lane k = { s.lane k with
            linkUp := false, state := .fault m
            counters := { (s.lane k).counters with linkLoss := (s.lane k).counters.linkLoss + 1 }
            checker := { (s.lane k).checker with inStep := false, cleanRun := 0 }
            pendingOffset := (v.lane k).pendingOffset }
        ∧ v.cb = (completeCommit k s).cb
        ∧ (m = .check → v.le = s.le ∧ (v.lane k).pendingOffset = (s.lane k).pendingOffset ∧ ∀ j, j ≠ k → v.lane j = s.lane j)
        ∧ State.Agree [.lanes, .cb, .le, .ports] s v)
      ∧ State.Agree lineParts s t)
  ∧ (∀ (s : State) (k : Lane), (s.lane k).linkUp = true → (∀ m, (s.lane k).state ≠ .active m) → ∃ t, exec (.laneLinkLoss k) s = .next t
      ∧ t = settle ((s.lane k).fifo.foldl (fun s _ => removeOldest k .missing s) (s.setLane k { s.lane k with
          linkUp := false
          counters := { (s.lane k).counters with linkLoss := (s.lane k).counters.linkLoss + 1 }
          checker := { (s.lane k).checker with inStep := false, cleanRun := 0 } }))
      ∧ (t.lane k).linkUp = false ∧ (t.lane k).state = (s.lane k).state ∧ (t.lane k).fifo = []
      ∧ (t.lane k).drain = (s.lane k).drain - (s.lane k).fifo.length
      ∧ (t.lane k).counters.linkLoss = (s.lane k).counters.linkLoss + 1
      ∧ (t.lane k).counters.noResponse = (s.lane k).counters.noResponse
      ∧ (t.lane k).checker.inStep = false ∧ (t.lane k).checker.cleanRun = 0
      ∧ (∀ p, NoticeSet.has (t.port p).pendingSet .lane = NoticeSet.has (s.port p).pendingSet .lane)
      ∧ State.Agree lineParts s t)
  ∧ ∀ (s : State) (k : Lane),
    (∀ m, (s.lane k).state = .fault m → ∃ t, exec (.laneLinkReturn k) s = .next t
      ∧ t.lanes = s.lanes.set k { s.lane k with linkUp := true, state := .active m }
      ∧ RaisedUp .lane s t ∧ State.Agree [.lanes, .windows, .ports] s t)
    ∧ (Settled s → (s.lane k).state = .off → exec (.laneLinkReturn k) s = .next (s.setLane k { s.lane k with linkUp := true }))

/-! ## Correction Block -/

/-- The correction of a captured line, sample by sample: with correction on, the table's entry of the position gives the sample less the
dark level, or 0, times the gain, over 65536 rounded to nearest and clamped to 255; with it off, the sample over 16 rounded down. -/
def Obligations.CorrectionOfLine : Prop :=
  ∀ (t : List (Nat × Correction)) (xs : List Sample),
    (correctLine t true xs).length = xs.length ∧ (correctLine t false xs).length = xs.length
    ∧ ∀ (q : Nat) (x : Sample), xs[q]? = some x → let c := (tableGet t q).getD { dark := 0, gain := 4096 }
      (∃ v, (correctLine t true xs)[q]? = some v ∧ v.toNat = min 255 (((x.toNat - c.dark) * c.gain + 32768) / 65536))
      ∧ ∃ v, (correctLine t false xs)[q]? = some v ∧ v.toNat = x.toNat / 16

/-- The staging requests from the claim holder with no commit pending: PAGE_CLEAR, PAGE_SEEK in and out of range, and PAGE_FILL, which
writes its entries in order from the pointer, stops the pointer at 255 and marks OVERFLOW where an entry is written after entry 255. -/
def Obligations.StagingRequests : Prop :=
  ∀ (s : State) (p : Port) (tag : Byte) (rest : List RequestFrame), Settled s → s.shared.holder = some p → s.cb.commit = none →
    (Taken s p (Request.pageClear.frame tag) rest →
      exec (.pageClear p) s = .next (answered p rest (responseTo .pageClear tag { code := .done })
        (s.withCb { s.cb with staging := [], pointer := 0, endWritten := false })))
    ∧ (∀ e, Taken s p ((Request.pageSeek e).frame tag) rest → e < 65536 →
      exec (.pageSeek p) s = .next (
        if e ≤ 255 then answered p rest (responseTo (.pageSeek e) tag { code := .done })
          (s.withCb { s.cb with pointer := e, endWritten := false })
        else answered p rest (responseTo (.pageSeek e) tag { code := .range }) s))
    ∧ (∀ es, Taken s p ((Request.pageFill es).frame tag) rest → (Request.pageFill es).fits → s.cb.pointer ≤ 255 →
      (es.length = 0 ∨ 32 < es.length ∨ (∃ c ∈ es, 4095 < c.dark ∨ 16383 < c.gain) →
        exec (.pageFill p) s = .next (answered p rest (responseTo (.pageFill es) tag { code := .range }) s))
      ∧ (1 ≤ es.length → es.length ≤ 32 → (∀ c ∈ es, c.dark ≤ 4095 ∧ c.gain ≤ 16383) → ∃ cb,
        exec (.pageFill p) s = .next (answered p rest (responseTo (.pageFill es) tag
          { code := .done, overflow := s.cb.endWritten || decide (256 < s.cb.pointer + es.length) }) (s.withCb cb))
        ∧ cb.tables = s.cb.tables ∧ cb.commit = s.cb.commit
        ∧ cb.pointer = min 255 (s.cb.pointer + es.length)
        ∧ cb.endWritten = (s.cb.endWritten || decide (256 ≤ s.cb.pointer + es.length))
        ∧ ∀ n, correctionAt cb.staging n =
            if n < s.cb.pointer then correctionAt s.cb.staging n
            else if n < 255 then (es[n - s.cb.pointer]?).getD (correctionAt s.cb.staging n)
            else if n = 255 then (if 256 ≤ s.cb.pointer + es.length then es.getLast?.getD (correctionAt s.cb.staging n)
              else correctionAt s.cb.staging n)
            else correctionAt s.cb.staging n))

/-- PAGE_COMMIT from the claim holder with no commit pending: for a lane in RUN or CHECK it is left pending, for a lane that is OFF or in
FAULT the staging page is in the table at once and COMMIT is raised at the port; a lane or page out of range is answered RANGE. While a
commit is pending all four staging requests are answered BUSY, whatever their fields. A pending commit completes before anything else of
its lane's next line event, and at its lane's link loss: the 256 staging entries are in the page of the lane's table, no other entry and
nothing of the staging page changes, the commit is absent, and COMMIT is raised at the requesting port if that is LIVE or STALLED. -/
def Obligations.PageCommitTaken : Prop :=
  (∀ (s : State) (p : Port) (tag : Byte) (rest : List RequestFrame) (k : Lane) (n : Nat),
    Settled s → Taken s p ((Request.pageCommit (laneNumber k) n).frame tag) rest → n < 256 → s.shared.holder = some p → s.cb.commit = none →
    (31 < n → exec (.pageCommit p) s = .next (answered p rest (responseTo (.pageCommit (laneNumber k) n) tag { code := .range }) s))
    ∧ (n ≤ 31 → (∃ m, (s.lane k).state = .active m) →
      exec (.pageCommit p) s = .next (answered p rest (responseTo (.pageCommit (laneNumber k) n) tag { code := .done })
        (s.withCb { s.cb with commit := some { lane := k, page := n, port := p } })))
    ∧ (n ≤ 31 → (∀ m, (s.lane k).state ≠ .active m) → ∃ t, exec (.pageCommit p) s = .next t
      ∧ Delivered s t p rest (responseTo (.pageCommit (laneNumber k) n) tag { code := .done })
      ∧ t.cb.commit = none ∧ t.cb.staging = s.cb.staging ∧ t.cb.pointer = s.cb.pointer ∧ t.cb.endWritten = s.cb.endWritten
      ∧ (∀ i, correctionAt (t.cb.tables.get k) i =
          if 256 * n ≤ i ∧ i < 256 * n + 256 then correctionAt s.cb.staging (i - 256 * n) else correctionAt (s.cb.tables.get k) i)
      ∧ (∀ j, j ≠ k → t.cb.tables.get j = s.cb.tables.get j)
      ∧ Raised (fun q => decide (q = p)) .commit s t
      ∧ State.Agree [.cb, .windows, .ports] s t))
  ∧ (∀ (s : State) (p : Port) (tag : Byte) (rest : List RequestFrame) (k n : Nat),
    Settled s → Taken s p ((Request.pageCommit k n).frame tag) rest → 7 < k → k < 256 → n < 256 → s.shared.holder = some p →
    s.cb.commit = none → exec (.pageCommit p) s = .next (answered p rest (responseTo (.pageCommit k n) tag { code := .range }) s))
  ∧ (∀ (s : State) (p : Port) (f : RequestFrame) (rest : List RequestFrame) (kind : RequestKind),
    Settled s → Taken s p f rest → f.requestKind = some kind → kind ∈ [.pageClear, .pageSeek, .pageFill, .pageCommit] →
    s.shared.holder = some p → s.cb.commit.isSome = true →
    exec (kind.command p) s = .next (answered p rest (Answer.response { code := .busy } f) s))
  ∧ ∀ (s : State) (c : Commit), s.cb.commit = some c → let t := completeCommit c.lane s
    (t.cb.commit = none ∧ t.cb.staging = s.cb.staging ∧ t.cb.pointer = s.cb.pointer ∧ t.cb.endWritten = s.cb.endWritten
      ∧ (∀ i, correctionAt (t.cb.tables.get c.lane) i =
          if 256 * c.page ≤ i ∧ i < 256 * c.page + 256 then correctionAt s.cb.staging (i - 256 * c.page)
          else correctionAt (s.cb.tables.get c.lane) i)
      ∧ (∀ j, j ≠ c.lane → t.cb.tables.get j = s.cb.tables.get j)
      ∧ Raised (fun q => decide (q = c.port) && (s.port q).isUp) .commit s t
      ∧ State.Agree [.cb, .ports] s t)
    ∧ (∀ w offset mode body, lineEvent c.lane w offset mode body s = lineEvent c.lane w offset mode body t)
    ∧ (∀ m, (s.lane c.lane).linkUp = true → (s.lane c.lane).state = .active m → ∃ u, exec (.laneLinkLoss c.lane) s = .next u ∧ u.cb = t.cb)
    ∧ ∀ k, k ≠ c.lane → completeCommit k s = s

/-! ## Leveling Engine -/

/-- LEVEL_START from the claim holder while no search runs: with its fields in range and some lane of the set in RUN, the engine is
SEARCHING with the request record, the port, the WLN as start, and a record for each lane of the set, WAITING for a lane in RUN and
NOT_RUNNING for another; nothing else changes. -/
def Obligations.LevelStartTaken : Prop :=
  ∀ (s : State) (p : Port) (tag : Byte) (rest : List RequestFrame) (f : LevelFields) (ref : Lane),
    Settled s → Taken s p ((Request.levelStart f).frame tag) rest → s.shared.holder = some p → (∀ y, s.le ≠ .searching y) →
    laneOfNumber f.reference = some ref → 1 ≤ f.lanes.length → (f.lanes.map (·.1)).Nodup → f.reference ∈ f.lanes.map (·.1) →
    f.threshold ≤ 255 → 1 ≤ f.span → f.span ≤ 65535 →
    (∀ x ∈ f.lanes, ∃ k, laneOfNumber x.1 = some k ∧ x.2 < (s.lane k).width ∧ x.2 < 65536) →
    (∃ k n, (laneNumber k, n) ∈ f.lanes ∧ (s.lane k).state = .active .run) →
    let records := s.lanes.map fun k l => (f.lanes.find? fun x => decide (x.1 = laneNumber k)).map fun x =>
      ({ probe := x.2, status := if l.state = .active .run then .waiting else .notRunning, previous := none, edge := none } : SearchRecord)
    let request : LevelRequest := { reference := ref, threshold := f.threshold, span := f.span, apply := f.apply }
    exec (.levelStart p) s = .next (answered p rest (responseTo (.levelStart f) tag { code := .done })
      (s.withLe (.searching { request := request, port := p, start := s.mu.wln, records := records })))

/-- LEVEL_START otherwise, from the claim holder: BUSY while a search runs, before its fields are judged; RANGE with the engine left as it
is unless the set has 1 to 8 distinct lanes numbered 0 to 7, the reference among them, the threshold is at most 255, the span in 1 to
65535 and every probe below the width in force of its lane; and with no lane of the set in RUN the search ends at once by EDGES with
LEVEL raised, the reference NOT_RUNNING and every other lane NO_REFERENCE. -/
def Obligations.LevelStartRefusedOrEnded : Prop :=
  ∀ (s : State) (p : Port) (tag : Byte) (rest : List RequestFrame) (f : LevelFields),
    Settled s → Taken s p ((Request.levelStart f).frame tag) rest → (Request.levelStart f).fits → s.shared.holder = some p →
    let good := 1 ≤ f.lanes.length ∧ f.lanes.length ≤ 8 ∧ (f.lanes.map (·.1)).Nodup ∧ (∀ x ∈ f.lanes, x.1 ≤ 7)
      ∧ f.reference ≤ 7 ∧ f.reference ∈ f.lanes.map (·.1) ∧ f.threshold ≤ 255 ∧ 1 ≤ f.span ∧ f.span ≤ 65535
      ∧ ∀ k n, (laneNumber k, n) ∈ f.lanes → n < (s.lane k).width
    (∀ y, s.le = .searching y →
      exec (.levelStart p) s = .next (answered p rest (responseTo (.levelStart f) tag { code := .busy }) s))
    ∧ ((∀ y, s.le ≠ .searching y) → ¬good →
      exec (.levelStart p) s = .next (answered p rest (responseTo (.levelStart f) tag { code := .range }) s))
    ∧ ((∀ y, s.le ≠ .searching y) → good →
      (∀ k n, (laneNumber k, n) ∈ f.lanes → (s.lane k).state ≠ .active .run) → ∃ t y, exec (.levelStart p) s = .next t
        ∧ t.le = .done y ∧ y.cause = .edges ∧ y.start = s.mu.wln ∧ y.endWln = s.mu.wln ∧ y.port = p
        ∧ laneNumber y.request.reference = f.reference
        ∧ (∀ k n, (laneNumber k, n) ∈ f.lanes → ∃ r, y.results.get k = some r ∧ r.probe = n ∧ r.newOffset = none
            ∧ r.status = if laneNumber k = f.reference then .notRunning else .noReference)
        ∧ Delivered s t p rest (responseTo (.levelStart f) tag { code := .done })
        ∧ Raised (fun q => decide (q = p)) .level s t
        ∧ State.Agree [.le, .windows, .ports] s t)

/-- The end of a search by span: the results of the lanes follow R87, a lane with an edge being FOUND with the edge's offset plus the
signed distance of its edge from the reference's, where the sum lies in 0 to 4095; where the reference has no edge it is NOT_FOUND or
NOT_RUNNING and every other lane NO_REFERENCE. With apply set every FOUND lane's pending offset becomes its new offset, and no lane
changes otherwise. That the check stands also as a command is the model's choice, log 12. The course of the
search before: a line of a WAITING lane, stamped at or after the start, gives an edge where its value at the probe is at or above the
threshold and the previous one is present and below it, and otherwise becomes the previous value, or makes it absent where the line is
missing or does not reach the probe; any other line is ignored. A WAITING lane whose state leaves RUN, by link loss or at a repeat-start
trigger, becomes NOT_RUNNING; a lane with an edge keeps it. Where no lane of the set is WAITING any more the search ends at once by
EDGES at the current WLN, by R87 and R88: the FOUND offsets are staged if apply is set, and LEVEL is raised at the requesting port. -/
def Obligations.SpanEndTaken : Prop :=
  (∀ (s : State) (x : Search), s.le = .searching x →
      (lineDiff s.mu.wln x.start < x.request.span → Settled s → exec .spanEnd s = .next s)
      ∧ ((x.request.span : Int) ≤ lineDiff s.mu.wln x.start → ∃ t f, exec .spanEnd s = .next t ∧ t.le = .done f
        ∧ EndedBy x .span s.mu.wln f
        ∧ (∀ k r n, x.request.apply = true → f.results.get k = some r → r.status = .found → r.newOffset = some n →
            t.lane k = { s.lane k with pendingOffset := some n })
        ∧ (∀ k, x.request.apply = false ∨ (∀ r, f.results.get k = some r → r.status ≠ .found) → t.lane k = s.lane k)
        ∧ Raised (fun q => decide (q = x.port) && (s.port q).isUp) .level s t
        ∧ State.Agree [.lanes, .le, .windows, .ports] s t))
  ∧ (∀ (s : State) (k : Lane) (stamp : Line) (offset : Nat) (samples : Option (List Byte)),
    ((∀ x, s.le ≠ .searching x) → levelLine k stamp offset samples s = s)
    ∧ ∀ x, s.le = .searching x → (x.records.get k = none → levelLine k stamp offset samples s = s)
      ∧ ∀ r, x.records.get k = some r →
        let kept := fun r' => ({ x with records := x.records.set k (some r') } : Search)
        (r.status ≠ .waiting ∨ lineDiff stamp x.start < 0 → levelLine k stamp offset samples s = s)
        ∧ (r.status = .waiting → 0 ≤ lineDiff stamp x.start →
          ((∀ bytes, samples = some bytes → bytes.length ≤ r.probe) →
            levelLine k stamp offset samples s = s.withLe (.searching (kept { r with previous := none })))
          ∧ ∀ bytes v, samples = some bytes → bytes[r.probe]? = some v →
            let rise := ∃ before, r.previous = some before ∧ before.toNat < x.request.threshold ∧ x.request.threshold ≤ v.toNat
            (¬rise → levelLine k stamp offset samples s = s.withLe (.searching (kept { r with previous := some v })))
            ∧ (rise → let y := kept { r with status := .edge, edge := some { stamp := stamp, offset := offset }, previous := some v }
              (y.awaits → levelLine k stamp offset samples s = s.withLe (.searching y))
              ∧ (¬y.awaits → SearchEnded y .edges s.mu.wln s (levelLine k stamp offset samples s)))))
  ∧ ∀ (s : State) (x : Search) (k : Lane) (r : SearchRecord), s.le = .searching x → x.records.get k = some r →
    (s.lane k).state = .active .run →
    let y : Search := { x with records := x.records.set k (some { r with status := .notRunning }) }
    let level := fun p t => NoticeSet.has (State.port t p).pendingSet .level
    let goesOn := fun t : State => (∀ p, level p t = level p s) ∧ ∀ j, j ≠ k → t.lane j = s.lane j
    let left := fun t : State => (r.status ≠ .waiting → t.le = s.le ∧ goesOn t)
      ∧ (r.status = .waiting → (y.awaits → t.le = .searching y ∧ goesOn t)
        ∧ (¬y.awaits → ∃ f, t.le = .done f ∧ EndedBy y .edges s.mu.wln f
          ∧ (∀ j q n, x.request.apply = true → f.results.get j = some q → q.status = .found → q.newOffset = some n →
              j ≠ k ∧ t.lane j = { s.lane j with pendingOffset := some n })
          ∧ (∀ j, j ≠ k → x.request.apply = false ∨ (∀ q, f.results.get j = some q → q.status ≠ .found) → t.lane j = s.lane j)
          ∧ ∀ p, level p t = (level p s || (decide (p = x.port) && (s.port p).isUp))))
    ((s.lane k).linkUp = true → ∃ t, exec (.laneLinkLoss k) s = .next t ∧ left t)
    ∧ ∀ m src, (s.lane k).pendingMode = some (m, src) → m ≠ .active .run → left (applyRepeatStart k s)

/-- LEVEL_ABORT from the claim holder: a search ends with ABORT at the current WLN, every lane of the set ABORTED with its edge kept and
no new offset, nothing staged, LEVEL raised at the requesting port; with the engine IDLE or DONE it is answered STATE and changes
nothing. -/
def Obligations.LevelAbortTaken : Prop :=
  ∀ (s : State) (p : Port) (tag : Byte) (rest : List RequestFrame),
    Settled s → Taken s p (Request.levelAbort.frame tag) rest → s.shared.holder = some p →
    (∀ x, s.le = .searching x → ∃ t, exec (.levelAbort p) s = .next t
      ∧ t.le = .done { request := x.request, port := x.port, start := x.start, cause := .abort, endWln := s.mu.wln,
                       results := x.records.map fun _ r => r.map fun r =>
                         { probe := r.probe, status := .aborted, edge := r.edge, newOffset := none } }
      ∧ Delivered s t p rest (responseTo .levelAbort tag { code := .done })
      ∧ Raised (fun q => decide (q = x.port) && (s.port q).isUp) .level s t
      ∧ State.Agree [.le, .windows, .ports] s t)
    ∧ ((∀ x, s.le ≠ .searching x) →
      exec (.levelAbort p) s = .next (answered p rest (responseTo .levelAbort tag { code := .state }) s))

/-! ## Readouts -/

/-- The readouts change nothing but the request queue and the link, and answer with the state as it stands: SNAPSHOT and LOG the
numbering, LANE_INFO a lane, TABLE_READ a table entry, LEVEL_RESULTS the engine, WINDOW_INFO a window, RANGE and UNKNOWN as their rules
give. -/
def Obligations.Readouts : Prop :=
  ∀ (s : State) (p : Port) (tag : Byte) (rest : List RequestFrame), Settled s →
    let r : SnapshotRecord := {
      wln := s.mu.wln, rn := s.ru.newest.rn, irl := s.ru.newest.firstIrl + (s.mu.wln - s.ru.newest.start).toNat,
      phaseFraction := s.ru.phase % 256, stretch := s.ru.stretch, lock := s.ru.lock, motion := s.mu.motion, speed := s.mu.speed,
      owed := s.mu.owed, restart := s.ru.restart, pendingSettings := s.ru.pendingSettings.isSome }
    (Taken s p (Request.snapshot.frame tag) rest →
      exec (.snapshot p) s = .next (answered p rest (responseTo .snapshot tag { code := .done, data := .snapshot r }) s))
    ∧ (Taken s p (Request.log.frame tag) rest → exec (.log p) s = .next (answered p rest (responseTo .log tag
      { code := .done, data := .log (s.ru.older ++ [s.ru.newest]) }) s))
    ∧ (∀ n, n < 256 → Taken s p ((Request.laneInfo n).frame tag) rest → exec (.laneInfo p) s = .next (answered p rest
      (responseTo (.laneInfo n) tag (match laneOfNumber n with
        | none => { code := .range }
        | some k => { code := .done, data := .laneInfo k (s.lane k) })) s))
    ∧ (∀ n i, n < 256 → i < 65536 → Taken s p ((Request.tableRead n i).frame tag) rest →
      exec (.tableRead p) s = .next (answered p rest (responseTo (.tableRead n i) tag (match laneOfNumber n with
        | none => { code := .range }
        | some k => if i ≤ 8191 then { code := .done, data := .correction (correctionAt (s.cb.tables.get k) i) }
          else { code := .range })) s))
    ∧ (Taken s p (Request.levelResults.frame tag) rest → exec (.levelResults p) s = .next (answered p rest
      (responseTo .levelResults tag { code := .done, data := .levelResults s.le }) s))
    ∧ ∀ id, id < 256 → Taken s p ((Request.windowInfo id).frame tag) rest → exec (.windowInfo p) s = .next (answered p rest
      (responseTo (.windowInfo id) tag (if 63 < id then { code := .range } else match s.window id with
        | none => { code := .unknown }
        | some w => { code := .done, data := .windowInfo id w })) s)

/-- STATUS answers with its record read at one instant, and then empties the port's pending set; a waiting notice frame stays. Whether
the request depth counts the STATUS itself is the model's choice, log 19. -/
def Obligations.StatusTaken : Prop :=
  ∀ (s : State) (p : Port) (tag : Byte) (rest : List RequestFrame), Settled s → Taken s p (Request.status.frame tag) rest →
    let c := s.port p
    let r : StatusRecord := {
      pendingSet := c.pendingSet, portState := c.state, credit := c.credit, essentialDepth := c.essential.length,
      sheddableDepth := c.sheddable.length, requestDepth := rest.length, holder := s.shared.holder, standby := s.shared.standby,
      wln := s.mu.wln, rn := s.ru.newest.rn, irl := s.ru.newest.firstIrl + (s.mu.wln - s.ru.newest.start).toNat, lock := s.ru.lock,
      motion := s.mu.motion, speed := s.mu.speed, freeCount := s.bsc.free.length, pressure := s.bsc.pressure, skipped := s.mu.skipped,
      encoderErrors := s.mu.encoderErrors, overruns := s.mu.overruns, overrunLines := s.bsc.overrunLines, strays := s.ru.strays,
      requestErrors := c.errors, stripsSent := c.sent, entriesDropped := c.dropped, markersFired := s.mku.fired.get p,
      markersCancelled := s.mku.cancelled.get p }
    exec (.status p) s = .next (answered p rest (responseTo .status tag { code := .done, data := .status r })
      (s.setPort p { c with pendingSet := 0 }))

/-! ## Band Store Controller and Window Matcher -/

/-- A placement, captured or missing. Without a filling band, on a free slot, it opens a band with R99's values at the head of the free
list, clears the overrun-pending flag and judges pressure, with PRESSURE at every LIVE port at a change; its samples, cut to the width, stand in the band with the fill value after
them (R96, R97), and no other byte of the store changes. On an empty free list the line is only counted and the flag set. In a filling
band with its RN, block, width and column base the line becomes the last IRL, and a captured line joins the presence set and is written;
in any other filling band it first seals that band. A line at slot line 63 then seals the band. A seal completes the record and hands it
to matching (`matchBand`); the lane has no filling band, and the slot joins the tail of the free list where matching made no entry, and
is HELD by as many holders as it made entries otherwise. Pressure is judged at each slot that joins the tail, PRESSURE raised likewise. -/
def Obligations.BandsOpenedAndSealed : Prop :=
  (∀ (x : Placement) (s : State) (slot : Nat) (free : List Nat),
    s.bsc.filling.get x.lane = none → s.bsc.free = slot :: free → slot < 4096 → x.width ≤ 8192 →
    let kept := (x.samples.getD []).take x.width
    let b : Band := {
      lane := x.lane, rn := x.rn, block := x.irl / 64, startIrl := x.irl, lastIrl := x.irl
      presence := if x.samples.isSome then [(x.irl, kept.length)] else []
      startStamp := x.stamp, width := x.width, base := x.base,
      partialStart := decide (64 * (x.irl / 64) < x.firstIrl ∧ x.irl = x.firstIrl), test := !x.camera,
      overrun := s.bsc.overrunPending.get x.lane, sealing := none }
    ∃ t, place x s = (if x.irl % 64 = 63 then sealBand x.lane false t else t)
    ∧ t.band slot = some b ∧ (∀ other, other ≠ slot → t.band other = s.band other)
    ∧ t.bsc.free = free ∧ t.bsc.filling = s.bsc.filling.set x.lane (some slot)
    ∧ t.bsc.overrunPending = s.bsc.overrunPending.set x.lane false
    ∧ t.bsc.overrunLines = s.bsc.overrunLines ∧ t.bsc.sealSequence = s.bsc.sealSequence ∧ t.bsc.reserve = s.bsc.reserve
    ∧ PressureJudged s t
    ∧ (∀ fill q, bandContent t.dram slot b fill x.irl q = kept[q]?.getD fill)
    ∧ (∀ a, a < slot * 524288 + x.irl % 64 * 8192 ∨ slot * 524288 + x.irl % 64 * 8192 + kept.length ≤ a →
        dramRead t.dram a = dramRead s.dram a)
    ∧ State.Agree [.bsc, .dram, .ports] s t)
  ∧ (∀ (x : Placement) (s : State), s.bsc.filling.get x.lane = none → s.bsc.free = [] →
    place x s = s.withBsc { s.bsc with
      overrunLines := s.bsc.overrunLines + 1, overrunPending := s.bsc.overrunPending.set x.lane true })
  ∧ (∀ (x : Placement) (s : State) (slot : Nat) (b : Band), s.bsc.filling.get x.lane = some slot → s.band slot = some b →
    let same := b.rn = x.rn ∧ b.block = x.irl / 64 ∧ b.width = x.width ∧ b.base = x.base
    let kept := (x.samples.getD []).take x.width
    (¬same → place x s = place x (sealBand x.lane false s) ∧ (sealBand x.lane false s).bsc.filling.get x.lane = none)
    ∧ (same → slot < 4096 → x.width ≤ 8192 → ∃ t, place x s = (if x.irl % 64 = 63 then sealBand x.lane false t else t)
      ∧ t.band slot = some { b with
          lastIrl := x.irl, presence := b.presence ++ if x.samples.isSome then [(x.irl, kept.length)] else [] }
      ∧ (∀ other, other ≠ slot → t.band other = s.band other) ∧ t.bsc = { s.bsc with bands := t.bsc.bands }
      ∧ (∀ a, dramRead t.dram a =
          let first := slot * 524288 + x.irl % 64 * 8192
          if first ≤ a ∧ a < first + kept.length then kept[a - first]?.getD 0 else dramRead s.dram a)
      ∧ State.Agree [.bsc, .dram] s t))
  ∧ ∀ (s : State) (k : Lane) (stop : Bool) (slot : Nat) (b : Band),
    s.bsc.filling.get k = some slot → s.band slot = some b → let t := sealBand k stop s
    let r : SealRecord := {
      fill := (s.lane k).immediate.fill, stopSealed := stop
      irregular := match s.ru.query b.rn with
        | none => false
        | some e => e.length.isSome && e.irregularEnd
      lock := s.ru.lock, sequence := s.bsc.sealSequence, holders := 0 }
    let m := matchBand slot { b with sealing := some r } (s.withBsc { s.bsc with
      filling := s.bsc.filling.set k none, sealSequence := s.bsc.sealSequence + 1 })
    t.bsc.filling = s.bsc.filling.set k none ∧ t.bsc.sealSequence = s.bsc.sealSequence + 1
    ∧ t.bsc.overrunPending = s.bsc.overrunPending ∧ t.bsc.overrunLines = s.bsc.overrunLines ∧ t.bsc.reserve = s.bsc.reserve
    ∧ (∀ other, other ≠ slot → t.band other = s.band other)
    ∧ (m.2 = 0 → t.band slot = none ∧ t.bsc.free = s.bsc.free ++ [slot] ∧ PressureJudged s t)
    ∧ (1 ≤ m.2 → t.bsc.free = s.bsc.free ∧ t.bsc.pressure = s.bsc.pressure ∧ NothingRaised s t
      ∧ t.band slot = some { b with sealing := some { r with holders := m.2 } })
    ∧ t.windows = m.1.windows
    ∧ (∀ p cls, (t.port p).queue cls = (m.1.port p).queue cls) ∧ (∀ p, (t.port p).dropped = (m.1.port p).dropped)
    ∧ State.Agree [.bsc, .windows, .ports] s t

/-- One OPEN window judged against a sealed band. Where its four tests hold, its owner is LIVE, its class is ESSENTIAL or the store is not
under pressure, and the owner's queue has room, an entry with the two clips joins the tail of that queue. Where the tests hold and one of
the others fails, the loss is counted at the window and at its owner and sets GAP pending. Otherwise nothing changes; a CLOSING window and
a FREE one are passed over. A sealed band is matched against every window id from 0 to 63 in ascending order, and the number of entries
made, at most 64, is answered. The clips of a band of 1 to 64 lines are 1 to 64 lines and 1 to its width of columns. -/
def Obligations.MatchOfWindow : Prop :=
  (∀ (s : State) (slot n id : Nat) (b : Band),
      (s.window id = none → matchWindow slot b (s, n) id = (s, n))
      ∧ ∀ w, s.window id = some w →
        let last := b.base + b.width - 1
        let tests := (∀ set, w.lanes = some set → set.get b.lane = true) ∧ w.c0 ≤ last ∧ b.base ≤ w.c1
          ∧ b.rn.toNat % w.stride = w.phase ∧ w.l0 ≤ b.lastIrl ∧ ∀ l1, w.l1 = some l1 → b.startIrl ≤ l1
        let allowed := (s.port w.owner).state = .live ∧ (w.cls = .essential ∨ s.bsc.pressure = false)
          ∧ ((s.port w.owner).queue w.cls).length < 256
        (w.closing.isSome = true ∨ ¬tests → matchWindow slot b (s, n) id = (s, n))
        ∧ (w.closing = none → tests → allowed →
          let lastLine := match w.l1 with
            | none => b.lastIrl
            | some l1 => min b.lastIrl l1
          matchWindow slot b (s, n) id = (s.setPort w.owner ((s.port w.owner).setQueue w.cls ((s.port w.owner).queue w.cls ++ [{
            slot := slot, window := id, firstIrl := max b.startIrl w.l0, lines := lastLine + 1 - max b.startIrl w.l0
            firstColumn := max b.base w.c0, columns := min last w.c1 + 1 - max b.base w.c0, cls := w.cls }])), n + 1))
        ∧ (w.closing = none → tests → ¬allowed → ∃ t, matchWindow slot b (s, n) id = (t, n)
          ∧ t.window id = some { w with gap := true, dropped := w.dropped + 1 }
          ∧ (∀ other, other ≠ id → t.window other = s.window other)
          ∧ t.ports = s.ports.set w.owner { s.port w.owner with dropped := (s.port w.owner).dropped + 1 }
          ∧ State.Agree [.windows, .ports] s t))
  ∧ (∀ (s : State) (slot : Nat) (b : Band), WindowsOk s →
    matchBand slot b s = (List.range 64).foldl (matchWindow slot b) (s, 0) ∧ (matchBand slot b s).2 ≤ 64)
  ∧ ∀ (slot id : Nat) (w : Window) (b : Band), w.c0 ≤ b.base + b.width - 1 → b.base ≤ w.c1 → w.l0 ≤ b.lastIrl →
    (∀ l1, w.l1 = some l1 → b.startIrl ≤ l1 ∧ w.l0 ≤ l1) → w.c0 ≤ w.c1 → 1 ≤ b.width → b.startIrl ≤ b.lastIrl →
    b.lastIrl < b.startIrl + 64 → let e := clipEntry slot id w b
    1 ≤ e.lines ∧ e.lines ≤ 64 ∧ 1 ≤ e.columns ∧ e.columns ≤ b.width

/-- WINDOW_OPEN: STATE from a port that is not LIVE; RANGE where a field is out of range; TABLE_FULL with no FREE record; else the FREE
record with the lowest id holds the request's fields, owned by the requester with its counters at 0, and the answer carries the id. -/
def Obligations.WindowOpenTaken : Prop :=
  ∀ (s : State) (p : Port) (tag : Byte) (rest : List RequestFrame) (f : WindowFields),
    Settled s → WindowsOk s → Taken s p ((Request.windowOpen f).frame tag) rest → (Request.windowOpen f).fits →
    let answer := fun a => answered p rest (responseTo (.windowOpen f) tag a)
    let good := f.c0 ≤ 65535 ∧ f.c1 ≤ 65535 ∧ f.c0 ≤ f.c1 ∧ f.l0 ≤ 262143 ∧ (∀ l1, f.l1 = some l1 → l1 ≤ 262143 ∧ f.l0 ≤ l1)
      ∧ 1 ≤ f.stride ∧ f.stride ≤ 255 ∧ f.phase < f.stride
      ∧ ∀ ks, f.lanes = some ks → 1 ≤ ks.length ∧ ks.length ≤ 8 ∧ ks.Nodup ∧ ∀ k ∈ ks, k ≤ 7
    ((s.port p).state ≠ .live → exec (.windowOpen p) s = .next (answer { code := .state } s))
    ∧ ((s.port p).state = .live → ¬good → exec (.windowOpen p) s = .next (answer { code := .range } s))
    ∧ ((s.port p).state = .live → good → (∀ id, id < 64 → (s.window id).isSome = true) →
      exec (.windowOpen p) s = .next (answer { code := .tableFull } s))
    ∧ ∀ id, (s.port p).state = .live → good → id < 64 → s.window id = none → (∀ j, j < id → (s.window j).isSome = true) → ∃ w,
      exec (.windowOpen p) s = .next (answer { code := .done, data := .windowId id } (s.withWindows (tablePut s.windows id w)))
      ∧ w.owner = p ∧ w.origin = p ∧ w.adopted = false ∧ w.c0 = f.c0 ∧ w.c1 = f.c1 ∧ w.l0 = f.l0 ∧ w.l1 = f.l1 ∧ w.stride = f.stride
      ∧ w.phase = f.phase ∧ w.cls = f.cls ∧ w.gap = false ∧ w.sequence = 0 ∧ w.sent = 0 ∧ w.dropped = 0 ∧ w.closing = none
      ∧ (f.lanes = none → w.lanes = none)
      ∧ ∀ ks, f.lanes = some ks → ∃ set, w.lanes = some set ∧ ∀ k, set.get k = decide (laneNumber k ∈ ks)

/-- WINDOW_CLOSE and WINDOW_RETURN: RANGE above 63, UNKNOWN for a window that is not OPEN or not the requester's. A close withdraws and
releases every queued entry of the window, which may end pressure with PRESSURE at every LIVE port, and makes it FREE, or CLOSING with its strips in flight counted; a return to a LIVE origin
changes the owner of an adopted window, and is answered STATE otherwise. -/
def Obligations.WindowCloseAndReturn : Prop :=
  ∀ (s : State) (p : Port) (tag : Byte) (rest : List RequestFrame) (id : Nat), Settled s → id < 256 →
    (Taken s p ((Request.windowClose id).frame tag) rest →
      let answer := fun a => responseTo (.windowClose id) tag a
      (63 < id → exec (.windowClose p) s = .next (answered p rest (answer { code := .range }) s))
      ∧ (id ≤ 63 → (∀ w, s.window id = some w → w.closing.isSome = true ∨ w.owner ≠ p ∧ w.origin ≠ p) →
        exec (.windowClose p) s = .next (answered p rest (answer { code := .unknown }) s))
      ∧ ∀ w, HoldersOk s → WindowsOk s → s.window id = some w → w.closing = none → w.owner = p ∨ w.origin = p → ∃ t,
        exec (.windowClose p) s = .next t
        ∧ (∀ q cls, (t.port q).queue cls = ((s.port q).queue cls).filter fun e => decide (e.window ≠ id))
        ∧ (stripsInFlight id s = 0 → t.window id = none)
        ∧ (0 < stripsInFlight id s → t.window id = some { w with closing := some (stripsInFlight id s) })
        ∧ (∀ other, other ≠ id → t.window other = s.window other)
        ∧ (∀ slot b r, s.band slot = some b → b.sealing = some r →
            if t.naming slot = 0 then t.band slot = none ∧ slot ∈ t.bsc.free
            else t.band slot = some { b with sealing := some { r with holders := t.naming slot } })
        ∧ t.bsc.filling = s.bsc.filling ∧ t.bsc.sealSequence = s.bsc.sealSequence ∧ t.bsc.reserve = s.bsc.reserve
        ∧ (PressureOk s → PressureReleased (fun _ => True) s t)
        ∧ (∀ q, (t.port q).dropped = (s.port q).dropped ∧ (t.port q).credit = (s.port q).credit ∧ (t.port q).state = (s.port q).state)
        ∧ Delivered s t p rest (answer { code := .done })
        ∧ State.Agree [.bsc, .windows, .ports] s t)
    ∧ (Taken s p ((Request.windowReturn id).frame tag) rest →
      let answer := fun a => answered p rest (responseTo (.windowReturn id) tag a)
      (63 < id → exec (.windowReturn p) s = .next (answer { code := .range } s))
      ∧ (id ≤ 63 → (∀ w, s.window id = some w → w.closing.isSome = true ∨ w.owner ≠ p ∧ w.origin ≠ p) →
        exec (.windowReturn p) s = .next (answer { code := .unknown } s))
      ∧ ∀ w, id ≤ 63 → s.window id = some w → w.closing = none → w.owner = p ∨ w.origin = p →
        exec (.windowReturn p) s = .next (
          if w.adopted = true ∧ (s.port w.origin).state = .live then
            answer { code := .done } (s.withWindows (tablePut s.windows id { w with owner := w.origin, adopted := false }))
          else answer { code := .state } s))

/-! ## Consumer Ports, data side -/

/-- GRANT: a count outside 1 to 64 is answered RANGE; one in range makes the port LIVE with the smaller of 64 and credit + n, stops the
stall timer and answers with the new credit. SET_STORE from the claim holder: a record out of range is answered RANGE; one in range is
stored whole, and where it changes the reserve, pressure is judged against it, with PRESSURE at every LIVE port at a change. -/
def Obligations.GrantAndSetStore : Prop :=
  (∀ (s : State) (p : Port) (tag : Byte) (rest : List RequestFrame) (n : Nat),
    Settled s → Taken s p ((Request.grant n).frame tag) rest → n < 256 →
    exec (.grant p) s = .next (
      if 1 ≤ n ∧ n ≤ 64 then
        answered p rest (responseTo (.grant n) tag { code := .done, data := .credit (min 64 ((s.port p).credit + n)) })
          (s.setPort p { s.port p with state := .live, credit := min 64 ((s.port p).credit + n), stall := none })
      else answered p rest (responseTo (.grant n) tag { code := .range }) s))
  ∧ ∀ (s : State) (p : Port) (tag : Byte) (rest : List RequestFrame) (f : StoreFields),
    Settled s → Taken s p ((Request.setStore f).frame tag) rest → (Request.setStore f).fits → s.shared.holder = some p →
    (1024 < f.reserve ∨ f.stallTimeout < 1 ∨ 1000 < f.stallTimeout →
      exec (.setStore p) s = .next (answered p rest (responseTo (.setStore f) tag { code := .range }) s))
    ∧ (f.reserve ≤ 1024 → 1 ≤ f.stallTimeout → f.stallTimeout ≤ 1000 → ∃ t, exec (.setStore p) s = .next t
      ∧ t.shared = { s.shared with standby := f.standby, stallTimeout := f.stallTimeout }
      ∧ t.bsc = { s.bsc with
          reserve := f.reserve
          pressure := if f.reserve = s.bsc.reserve then s.bsc.pressure
            else if s.bsc.pressure then decide (s.bsc.free.length ≤ f.reserve + 32) else decide (s.bsc.free.length ≤ f.reserve) }
      ∧ Delivered s t p rest (responseTo (.setStore f) tag { code := .done })
      ∧ (t.bsc.pressure ≠ s.bsc.pressure → Raised (fun q => (s.port q).isLive) .pressure s t)
      ∧ (t.bsc.pressure = s.bsc.pressure → NothingRaised s t)
      ∧ State.Agree [.bsc, .ports, .shared] s t)

/-- A link up of a DOWN port: LIVE, credit 0, everything empty, its counters kept; a port whose link is up takes no such event (log 2).
A link loss of a LIVE or STALLED port with no RESTART in progress from it: DOWN with credit 0 and everything empty, its request errors
kept, its claim given up with CLAIM at every other LIVE port; its OPEN windows are owned by the standby that can adopt, or are closed
where none can. The loss first aborts a strip in flight: its entry is released, a CLOSING window counts one strip in flight less, and for
an OPEN window the strip is lost. With a standby that can adopt, the queued entries join its queues in their order as far as there is room
and the newest that do not fit are lost; without one all are lost, and the windows' entries still queued at other ports are withdrawn. Each
loss counts at the port and at its window and leaves GAP pending there; every released entry falls from its band's holders, the slot of a
band that none names any more joining the free list, which may end pressure with PRESSURE at every other LIVE port. -/
def Obligations.SteeringLinks : Prop :=
  (∀ (s : State) (p : Port),
    exec (.steeringLinkUp p) s = .next (
      if (s.port p).state = .down then s.setPort p { emptyPort .live true with
        sent := (s.port p).sent, dropped := (s.port p).dropped, errors := (s.port p).errors }
      else s))
  ∧ (∀ (s : State) (p : Port), (s.port p).isUp = true → s.shared.restart ≠ some p → ∃ t, exec (.steeringLinkLoss p) s = .next t
    ∧ t.port p = { emptyPort .down false with sent := (s.port p).sent, dropped := (t.port p).dropped, errors := (s.port p).errors }
    ∧ t.shared = { s.shared with holder := if s.shared.holder = some p then none else s.shared.holder }
    ∧ (s.shared.holder = some p → ∀ q, q ≠ p → (s.port q).state = .live → NoticeSet.has (t.port q).pendingSet .claim = true)
    ∧ (∀ st, s.shared.standby = some st → st ≠ p → (s.port st).state = .live →
        NoticeSet.has (t.port st).pendingSet .adopt = true
        ∧ ∀ id w, s.window id = some w → w.closing = none → w.owner = p → ∃ v, t.window id = some v ∧ v.closing = none ∧ v.owner = st
          ∧ v.origin = w.origin ∧ v.adopted = decide (st ≠ w.origin))
    ∧ ((∀ st, s.shared.standby = some st → st = p ∨ (s.port st).state ≠ .live) →
        ∀ id w, s.window id = some w → w.closing = none → w.owner = p → ∀ v, t.window id = some v → v.closing.isSome = true)
    ∧ State.Agree [.bsc, .windows, .ports, .shared] s t)
  ∧ ∀ (s : State) (p : Port), Settled s → SlotsOk s → HoldersOk s → WindowsOk s → PortsOk s →
    (s.port p).isUp = true → s.shared.restart ≠ some p → let c := s.port p
    let lost := s.abortLost p ++ s.leftOver p .essential ++ s.leftOver p .sheddable
    ∃ t, exec (.steeringLinkLoss p) s = .next t
    ∧ (t.port p).dropped = c.dropped + BitVec.ofNat 32 lost.length
    ∧ LossCounted lost s t
    ∧ EntriesReleased s t
    ∧ (PressureOk s → PressureReleased (fun q => q ≠ p) s t)
    ∧ (∀ id w n, s.window id = some w → w.closing = some n →
        t.window id = if c.stripWindow = some id then (if n = 1 then none else some { w with closing := some (n - 1) }) else some w)
    ∧ (∀ st, TakesOver s p st → EntriesMoved p st s t ∧ (∀ q, q ≠ p → q ≠ st → ∀ cls, (t.port q).queue cls = (s.port q).queue cls)
        ∧ ∀ id w, s.window id = some w → w.closing = none → ∃ v, t.window id = some v ∧ v.closing = none)
    ∧ ((∀ st, ¬TakesOver s p st) →
        (∀ q, q ≠ p → ∀ cls, (t.port q).queue cls
          = ((s.port q).queue cls).filter fun e => decide ((s.window e.window).map (·.owner) ≠ some p))
        ∧ ∀ id w, s.window id = some w → w.closing = none →
          (w.owner ≠ p → ∃ v, t.window id = some v ∧ v.closing = none)
          ∧ (w.owner = p → stripsInFlight id t = 0 → t.window id = none)
          ∧ (w.owner = p → 0 < stripsInFlight id t → let n := lost.countP fun e => decide (e.window = id)
            t.window id = some { w with
              gap := w.gap || decide (0 < n), dropped := w.dropped + BitVec.ofNat 32 n, closing := some (stripsInFlight id t) }))

/-- The end of a response or notice frame, the DONE of a RESTART in progress apart: the oldest waiting response is sent next; with none,
the waiting notice frame; with neither, a strip is begun if the port is LIVE with credit and an entry, for the head of the essential
queue or, that being empty, of the sheddable queue, with R138's header; else the link is idle. The frame of a strip is that header and
line count × column count bytes, the clipped lines upward and each from its first column upward: a captured sample from the slot where the
presence set holds it, and the band's fill value elsewhere. -/
def Obligations.FrameCompletions : Prop :=
  (∀ (s : State) (p : Port) (frame : OutFrame), Settled s → (s.port p).isUp = true → (s.port p).outbound = some frame →
    (∀ e h, frame ≠ .strip e h) → ¬(s.shared.restart = some p ∧ ∃ x, frame = .response x ∧ x.kind = 28 ∧ x.code = .done) →
    let c := s.port p
    (∀ x xs, c.responses = x :: xs →
      exec (.frameCompletion p) s = .next (s.setPort p { c with responses := xs, outbound := some (.response x) }))
    ∧ (∀ kinds, c.responses = [] → c.notice = some kinds →
      exec (.frameCompletion p) s = .next (s.setPort p { c with notice := none, outbound := some (.notice kinds) }))
    ∧ (c.responses = [] → c.notice = none → c.state ≠ .live ∨ c.credit = 0 ∨ c.essential = [] ∧ c.sheddable = [] →
      exec (.frameCompletion p) s = .next (s.setPort p { c with outbound := none }))
    ∧ ∀ e es sh w b r, c.responses = [] → c.notice = none → c.state = .live → 1 ≤ c.credit →
      (c.essential = e :: es ∧ c.sheddable = sh) ∨ (c.essential = [] ∧ es = [] ∧ c.sheddable = e :: sh) →
      s.window e.window = some w → s.band e.slot = some b → b.sealing = some r →
      exec (.frameCompletion p) s = .next (
        (s.withWindows (tablePut s.windows e.window { w with sequence := w.sequence + 1, gap := false, sent := w.sent + 1 })).setPort p
          { c with
            credit := c.credit - 1, sent := c.sent + 1, essential := es, sheddable := sh
            stall := if c.credit = 1 ∧ ¬(es = [] ∧ sh = []) then some (s.now + s.shared.stallTimeout * 100000) else none
            outbound := some (.strip e {
              window := e.window, origin := w.origin, cls := e.cls, sequence := w.sequence, gap := w.gap, slot := e.slot
              lane := b.lane, rn := b.rn, block := b.block, startIrl := b.startIrl, lastIrl := b.lastIrl, startStamp := b.startStamp
              base := b.base, width := b.width, partialStart := b.partialStart, test := b.test, overrun := b.overrun
              stopSealed := r.stopSealed, irregular := r.irregular, lock := r.lock, sealSequence := r.sequence
              firstIrl := e.firstIrl, lines := e.lines, firstColumn := e.firstColumn, columns := e.columns
              presence := (List.range e.lines).map fun i => (tableGet b.presence (e.firstIrl + i)).getD 0 }) }))
  ∧ ∀ (s : State) (p : Port) (e : Entry) (h : StripHeader) (b : Band) (r : SealRecord), (s.port p).outbound = some (.strip e h) →
    s.band e.slot = some b → b.sealing = some r → ∃ payload, s.wire p = some (envelope 4 (h.bytes ++ payload))
      ∧ payload.length = e.lines * e.columns
      ∧ ∀ i j, i < e.lines → j < e.columns → let pos := e.firstColumn + j - b.base
        payload[i * e.columns + j]? = some (
          if pos < (tableGet b.presence (e.firstIrl + i)).getD 0
          then dramRead s.dram (e.slot * 524288 + (e.firstIrl + i - 64 * b.block) * 8192 + pos)
          else r.fill)

/-- The reset of a RESTART in progress, at the end of the frame with its DONE or at the loss of its port's link: every block takes its
RESTART values, a port whose link is up is LIVE and another DOWN, the fired counters stay, and each queued marker counts as cancelled
at each of its requesters. -/
def Obligations.RestartApplied : Prop :=
  (∀ (s : State) (p : Port) (x : Response), s.shared.restart = some p → (s.port p).outbound = some (.response x) → x.kind = 28 →
    x.code = .done → ∃ t, exec (.frameCompletion p) s = .next t ∧ BlocksReset s.mu.reference s t
      ∧ (∀ q, t.port q = emptyPort (if (s.port q).linkUp then .live else .down) (s.port q).linkUp)
      ∧ ∀ q, t.mku.fired.get q = s.mku.fired.get q
        ∧ t.mku.cancelled.get q = s.mku.cancelled.get q + BitVec.ofNat 32 (s.mku.queue.countP fun e => e.requesters.get q))
  ∧ ∀ (s : State) (p : Port), s.shared.restart = some p → (s.port p).isUp = true → ∃ t, exec (.steeringLinkLoss p) s = .next t
      ∧ BlocksReset s.mu.reference s t
      ∧ t.port p = emptyPort .down false
      ∧ (∀ q, q ≠ p → t.port q = emptyPort (if (s.port q).linkUp then .live else .down) (s.port q).linkUp)
      ∧ ∀ q, t.mku.fired.get q = s.mku.fired.get q
        ∧ t.mku.cancelled.get q = s.mku.cancelled.get q + BitVec.ofNat 32 (s.mku.queue.countP fun e => e.requesters.get q)

/-- The end of a strip: its entry is released, the holder count falling by one or the slot joining the tail of the free list, where pressure
is judged and PRESSURE raised at every LIVE port at a change; a CLOSING
window counts one strip in flight less and is FREE at 0; the credit is not returned; a waiting response is sent next. -/
def Obligations.StripCompletions : Prop :=
  ∀ (s : State) (p : Port) (e : Entry) (h : StripHeader), Settled s → WindowsOk s → (s.port p).isUp = true →
    (s.port p).outbound = some (.strip e h) → ∃ t, exec (.stripCompletion p) s = .next t
      ∧ (∀ b r, s.band e.slot = some b → b.sealing = some r →
          (r.holders = 1 → t.band e.slot = none ∧ t.bsc.free = s.bsc.free ++ [e.slot] ∧ PressureJudged s t)
          ∧ (2 ≤ r.holders → t.band e.slot = some { b with sealing := some { r with holders := r.holders - 1 } }
              ∧ t.bsc.free = s.bsc.free ∧ t.bsc.pressure = s.bsc.pressure ∧ NothingRaised s t))
      ∧ (∀ slot, slot ≠ e.slot → t.band slot = s.band slot)
      ∧ (∀ w n, s.window e.window = some w → w.closing = some n →
          t.window e.window = if n = 1 then none else some { w with closing := some (n - 1) })
      ∧ (∀ x xs, (s.port p).responses = x :: xs → t.port p = { s.port p with
          responses := xs, outbound := some (.response x)
          pendingSet := (t.port p).pendingSet, notice := (t.port p).notice } ∧ t.windows = (closingStripEnd e.window s).windows)
      ∧ (t.port p).credit ≤ (s.port p).credit
      ∧ State.Agree [.bsc, .windows, .ports] s t

/-- The stall timer's expiry at a LIVE port: STALLED with STALL pending at it and both queues empty. A LIVE standby other than the port
owns its OPEN windows and takes its entries, in their order, as far as there is room, with ADOPT pending at it; without one, the port
keeps its windows, and every entry is lost. A lost entry counts at the port and at its window and sets GAP pending there; each leaves the
holders of its band, and slots that become free may end pressure with PRESSURE at every other LIVE port. The clock that moves
forward to the expiry time is the model's, log 3. -/
def Obligations.StallExpired : Prop :=
  ∀ (s : State) (p : Port) (due : Nat), Settled s → (s.port p).state = .live → (s.port p).stall = some due → let c := s.port p
    ∃ t, exec (.stallTimerExpiry p) s = .next t
      ∧ t.now = max s.now due
      ∧ (t.port p).state = .stalled ∧ (t.port p).stall = none ∧ (t.port p).essential = [] ∧ (t.port p).sheddable = []
      ∧ (t.port p).credit = c.credit ∧ (t.port p).requests = c.requests
      ∧ NoticeSet.has (t.port p).pendingSet .stall = true
      ∧ (∀ st, s.shared.standby = some st → st ≠ p → (s.port st).state = .live → let d := s.port st
          NoticeSet.has (t.port st).pendingSet .adopt = true
          ∧ (∀ id w, s.window id = some w → w.closing = none → w.owner = p → ∃ v, t.window id = some v ∧ v.closing = none
              ∧ v.owner = st ∧ v.origin = w.origin ∧ v.adopted = decide (st ≠ w.origin))
          ∧ EntriesMoved p st s t
          ∧ (t.port p).dropped = c.dropped + BitVec.ofNat 32 (c.essential.length - (256 - d.essential.length)
              + (c.sheddable.length - (256 - d.sheddable.length))))
      ∧ ((∀ st, s.shared.standby = some st → st = p ∨ (s.port st).state ≠ .live) →
          (∀ id w, s.window id = some w → w.owner = p → ∃ v, t.window id = some v ∧ v.owner = p)
          ∧ (∀ e, e ∈ c.essential ++ c.sheddable → ∀ w, s.window e.window = some w → w.closing = none →
              ∃ v, t.window e.window = some v ∧ v.gap = true ∧ v.sequence = w.sequence)
          ∧ (t.port p).dropped = c.dropped + BitVec.ofNat 32 (c.essential.length + c.sheddable.length))
      ∧ LossCounted (s.leftOver p .essential ++ s.leftOver p .sheddable) s t
      ∧ (SlotsOk s → HoldersOk s → EntriesReleased s t)
      ∧ (PressureOk s → PressureReleased (fun _ => True) s t)
      ∧ State.Agree [.now, .bsc, .windows, .ports] s t

/-! ## Marker Unit -/

/-- MARK_OUT: STATE from a port that is not LIVE; RANGE for its own fields; UNKNOWN_REPEAT for a repeat not in the log; RANGE for a line
outside a logged repeat; LATE for a target not after the current WLN; a merge with the entry of the same output and target; FULL at 32
entries; else a new entry, in order of target. -/
def Obligations.MarkOutTaken : Prop :=
  ∀ (s : State) (p : Port) (tag : Byte) (rest : List RequestFrame) (f : MarkFields),
    Settled s → LogOk s → Taken s p ((Request.markOut f).frame tag) rest → (Request.markOut f).fits →
    let answer := fun a => answered p rest (responseTo (.markOut f) tag a)
    let good := 1 ≤ f.width ∧ f.width ≤ 65535 ∧ f.irl ≤ 262143
    ((s.port p).state ≠ .live → exec (.markOut p) s = .next (answer { code := .state } s))
    ∧ ((s.port p).state = .live → ¬good → exec (.markOut p) s = .next (answer { code := .range } s))
    ∧ ((s.port p).state = .live → good → (∀ e ∈ s.ru.older ++ [s.ru.newest], e.rn ≠ f.rn) →
      exec (.markOut p) s = .next (answer { code := .unknownRepeat } s))
    ∧ ∀ e ∈ s.ru.older ++ [s.ru.newest], (s.port p).state = .live → good → e.rn = f.rn →
      let target := e.start + BitVec.ofNat 32 (f.irl - e.firstIrl) + BitVec.ofNat 32 (s.mku.outputs.get f.output).distance
      let outside := f.irl < e.firstIrl ∨ ∃ n, e.length = some n ∧ e.firstIrl + n ≤ f.irl
      let same := ∃ m ∈ s.mku.queue, m.output = f.output ∧ m.target = target
      (outside → exec (.markOut p) s = .next (answer { code := .range } s))
      ∧ (¬outside → lineDiff target s.mu.wln ≤ 0 → exec (.markOut p) s = .next (answer { code := .late } s))
      ∧ (¬outside → 0 < lineDiff target s.mu.wln → same →
        exec (.markOut p) s = .next (answer { code := .done, merged := true } (s.withMku { s.mku with
          queue := s.mku.queue.map fun m => if m.output = f.output ∧ m.target = target then
            { m with width := max m.width f.width, requesters := m.requesters.set p true } else m })))
      ∧ (¬outside → 0 < lineDiff target s.mu.wln → ¬same → 32 ≤ s.mku.queue.length →
        exec (.markOut p) s = .next (answer { code := .full } s))
      ∧ (¬outside → 0 < lineDiff target s.mu.wln → ¬same → s.mku.queue.length < 32 → ∃ before after,
        s.mku.queue = before ++ after ∧ (∀ m ∈ before, lineDiff m.target target ≤ 0)
        ∧ (∀ m, after.head? = some m → 0 < lineDiff m.target target)
        ∧ exec (.markOut p) s = .next (answer { code := .done } (s.withMku { s.mku with
            queue := before ++ { output := f.output, target := target, width := f.width
                                 requesters := { c0 := decide (p = .c0), c1 := decide (p = .c1), c2 := decide (p = .c2),
                                                 c3 := decide (p = .c3) } } :: after })))

/-- The marker outputs. SET_MARKER_OUT from the claim holder stores the distance at once and the mode and polarity as pending, or is
answered RANGE. A firing applies the pending pair and then sets the output active until the later pulse end, or inverts it, counts at
each requester and raises MARKER at those that are LIVE or STALLED; a due line removes its entries, leaves the others, and fires the removed ones in queue order. A pulse end
makes the output inactive; the clock that moves forward to the stored time is the model's, log 3. -/
def Obligations.MarkerOutputs : Prop :=
  (∀ (s : State) (p : Port) (tag : Byte) (rest : List RequestFrame) (f : MarkerFields),
    Settled s → Taken s p ((Request.setMarkerOut f).frame tag) rest → (Request.setMarkerOut f).fits → s.shared.holder = some p →
    exec (.setMarkerOut p) s = .next (
      if f.distance ≤ 1000000 then
        answered p rest (responseTo (.setMarkerOut f) tag { code := .done }) (s.withMku { s.mku with
          outputs := s.mku.outputs.set f.output { s.mku.outputs.get f.output with
            distance := f.distance, pendingMode := some (f.mode, f.polarity) } })
      else answered p rest (responseTo (.setMarkerOut f) tag { code := .range }) s))
  ∧ (∀ (s : State) (e : MarkerEntry), let t := fireEntry s e
    let o := s.mku.outputs.get e.output
    let m := o.pendingMode.getD (o.mode, o.polarity)
    t.mku.outputs = s.mku.outputs.set e.output {
      distance := o.distance, mode := m.1, polarity := m.2, pendingMode := none
      active := match m.1 with
        | .pulse => true
        | .toggle => !o.active
      pulseEnd := match m.1, o.pulseEnd with
        | .pulse, none => some (s.now + 100 * e.width)
        | .pulse, some due => some (max due (s.now + 100 * e.width))
        | .toggle, _ => none }
    ∧ (∀ q, t.mku.fired.get q = s.mku.fired.get q + if e.requesters.get q then 1 else 0)
    ∧ t.mku.queue = s.mku.queue ∧ t.mku.cancelled = s.mku.cancelled
    ∧ Raised (fun q => e.requesters.get q && (s.port q).isUp) .marker s t
    ∧ State.Agree [.ports, .mku] s t)
  ∧ (∀ (s : State) (w : Line), let t := markerDueLine w s
    t = (s.mku.queue.filter fun e => decide (e.target = w)).foldl fireEntry
      (s.withMku { s.mku with queue := s.mku.queue.filter fun e => decide (e.target ≠ w) })
    ∧ t.mku.queue = s.mku.queue.filter (fun e => decide (e.target ≠ w))
    ∧ (∀ q, t.mku.fired.get q = s.mku.fired.get q
        + BitVec.ofNat 32 (s.mku.queue.countP fun e => decide (e.target = w) && e.requesters.get q))
    ∧ ((∀ e ∈ s.mku.queue, e.target ≠ w) → t = s)
    ∧ State.Agree [.ports, .mku] s t)
  ∧ ∀ (s : State) (o : Output) (due : Nat), (s.mku.outputs.get o).pulseEnd = some due →
    exec (.pulseEnd o) s = .next ((s.withNow (max s.now due)).withMku { s.mku with
      outputs := s.mku.outputs.set o { s.mku.outputs.get o with active := false, pulseEnd := none } })

/-! ## Consumer Ports, request side -/

/-- The arrival of a request frame at a LIVE or STALLED port: a mismatched frame only counts as a request error; an accepted one joins a
queue of fewer than 8, is answered QUEUE_FULL on a full queue, and is discarded and counted where 16 responses wait besides. No frame
arrives at a DOWN port (log 2). -/
def Obligations.RequestArrived : Prop :=
  ∀ (s : State) (p : Port), Settled s → let c := s.port p
    let counted := s.setPort p { c with errors := c.errors + 1 }
    (∀ bytes, c.isUp = true →
      bytes.head? ≠ some 1 ∨ bytes.length < 11 ∨ leValue ((bytes.drop 1).take 4) ≠ bytes.length
        ∨ leValue (bytes.drop (bytes.length - 4)) ≠ (frameCheck (bytes.take (bytes.length - 4))).toNat →
      exec (.requestArrival p bytes) s = .next counted)
    ∧ (∀ f : RequestFrame, c.isUp = true → f.fields.length + 11 < 4294967296 →
      exec (.requestArrival p f.bytes) s = .next (
        if c.requests.length < 8 then s.setPort p { c with requests := c.requests ++ [f] }
        else if c.responses.length < 16 then answered p c.requests (Answer.response { code := .queueFull } f) s
        else counted))
    ∧ ∀ bytes, c.state = .down → exec (.requestArrival p bytes) s = .next s

/-- The refusals common to the requests, which change nothing: BAD_KIND for a kind that is not known; NOT_HOLDER for a claim request from
a port that does not hold the claim, whatever its fields; RANGE for fields that their layout does not give, once the claim, a busy block
and the port's state let the fields be checked. The place of the checks of fields is the model's choice in part, log 15. -/
def Obligations.RequestsRefused : Prop :=
  ∀ (s : State) (p : Port) (f : RequestFrame) (rest : List RequestFrame), Settled s → Taken s p f rest →
    (f.kind = 0 ∨ 28 < f.kind.toNat → exec (.badKind p) s = .next (answered p rest (Answer.response { code := .badKind } f) s))
    ∧ (∀ kind, f.requestKind = some kind → kind.isClaim = true → s.shared.holder ≠ some p →
      exec (kind.command p) s = .next (answered p rest (Answer.response { code := .notHolder } f) s))
    ∧ ∀ kind, f.requestKind = some kind → (kind.isClaim = true → s.shared.holder = some p) →
      (kind ∈ [.pageClear, .pageSeek, .pageFill, .pageCommit] → s.cb.commit = none) →
      (kind = .levelStart → ∀ x, s.le ≠ .searching x) →
      (kind ∈ [.windowOpen, .markOut] → (s.port p).state = .live) →
      readRequest kind f.fields = none →
      exec (kind.command p) s = .next (answered p rest (Answer.response { code := .range } f) s)

/-- CLAIM gives a free claim to the requester, with CLAIM raised at every other LIVE port, is DONE again for the holder and HELD for
another; RELEASE gives it up likewise, and is NOT_HOLDER from another port; NOTICES enables or disables the listed kinds in the mask and
answers with it, RANGE for a list outside 1 to 13; RESTART from the claim holder is answered DONE and is in progress. A kind raised at a
port (`raiseWhere`, with which every block raises) changes nothing where it is pending already; else it joins the pending set, and where
the mask enables it, it is added to the waiting notice frame, or a new one is made that names it alone. No other port changes. -/
def Obligations.ClaimsAndNotices : Prop :=
  (∀ (s : State) (p : Port) (tag : Byte) (rest : List RequestFrame), Settled s →
    (Taken s p (Request.claim.frame tag) rest →
      (s.shared.holder = none → ∃ t, exec (.claim p) s = .next t ∧ t.shared = { s.shared with holder := some p }
        ∧ Delivered s t p rest (responseTo .claim tag { code := .done }) ∧ RaisedOthers p .claim s t
        ∧ State.Agree [.ports, .shared] s t)
      ∧ (s.shared.holder = some p → exec (.claim p) s = .next (answered p rest (responseTo .claim tag { code := .done }) s))
      ∧ ∀ q, q ≠ p → s.shared.holder = some q →
        exec (.claim p) s = .next (answered p rest (responseTo .claim tag { code := .held, data := .holder q }) s))
    ∧ (Taken s p (Request.release.frame tag) rest →
      (s.shared.holder = some p → ∃ t, exec (.release p) s = .next t ∧ t.shared = { s.shared with holder := none }
        ∧ Delivered s t p rest (responseTo .release tag { code := .done }) ∧ RaisedOthers p .claim s t
        ∧ State.Agree [.ports, .shared] s t)
      ∧ (s.shared.holder ≠ some p →
        exec (.release p) s = .next (answered p rest (responseTo .release tag { code := .notHolder }) s)))
    ∧ (∀ set kinds, Taken s p ((Request.notices set kinds).frame tag) rest → kinds.length < 256 →
      (1 ≤ kinds.length → kinds.length ≤ 13 → ∃ mask, (∀ k, NoticeSet.has mask k = if k ∈ kinds then set else NoticeSet.has (s.port p).mask k)
        ∧ exec (.notices p) s = .next (answered p rest (responseTo (.notices set kinds) tag { code := .done, data := .mask mask })
          (s.setPort p { s.port p with mask := mask })))
      ∧ (kinds = [] ∨ 13 < kinds.length →
        exec (.notices p) s = .next (answered p rest (responseTo (.notices set kinds) tag { code := .range }) s)))
    ∧ (Taken s p (Request.restart.frame tag) rest → s.shared.holder = some p →
      exec (.restart p) s = .next (answered p rest (responseTo .restart tag { code := .done })
        (s.withShared { s.shared with restart := some p }))))
  ∧ (∀ (sel : Port → ConsumerPort → Bool) (k : NoticeKind) (s : State), State.Agree [.ports] s (raiseWhere sel k s) ∧ ∀ p,
    let c := s.port p
    let d := (raiseWhere sel k s).port p
    (sel p c = false ∨ NoticeSet.has c.pendingSet k = true → d = c)
    ∧ (sel p c = true → NoticeSet.has c.pendingSet k = false →
      (NoticeSet.has c.mask k = false → d = { c with pendingSet := NoticeSet.add c.pendingSet k })
      ∧ (NoticeSet.has c.mask k = true → c.notice = none →
        d = { c with pendingSet := NoticeSet.add c.pendingSet k, notice := some (NoticeSet.add 0 k) })
      ∧ ∀ kinds, NoticeSet.has c.mask k = true → c.notice = some kinds →
        d = { c with pendingSet := NoticeSet.add c.pendingSet k, notice := some (NoticeSet.add kinds k) }))
  ∧ ∀ (kinds : NoticeSet) (k j : NoticeKind), NoticeSet.has (NoticeSet.add kinds k) j = (decide (j = k) || NoticeSet.has kinds j)
end

