-- ==== Sys2Proof/Laws/State.lean ====
section
/-!
SUPPORT. One lemma per field per update of State, and the laws of access by port, lane and output.
-/

namespace Sys2Proof.Machine

/-! ### Fields of an updated state -/

@[simp] theorem State.withPending_pending (s : State) (x : List Instr) : (s.withPending x).pending = x := rfl
@[simp] theorem State.withPending_now (s : State) (x : List Instr) : (s.withPending x).now = s.now := rfl
@[simp] theorem State.withPending_mu (s : State) (x : List Instr) : (s.withPending x).mu = s.mu := rfl
@[simp] theorem State.withPending_ru (s : State) (x : List Instr) : (s.withPending x).ru = s.ru := rfl
@[simp] theorem State.withPending_lanes (s : State) (x : List Instr) : (s.withPending x).lanes = s.lanes := rfl
@[simp] theorem State.withPending_cb (s : State) (x : List Instr) : (s.withPending x).cb = s.cb := rfl
@[simp] theorem State.withPending_le (s : State) (x : List Instr) : (s.withPending x).le = s.le := rfl
@[simp] theorem State.withPending_bsc (s : State) (x : List Instr) : (s.withPending x).bsc = s.bsc := rfl
@[simp] theorem State.withPending_dram (s : State) (x : List Instr) : (s.withPending x).dram = s.dram := rfl
@[simp] theorem State.withPending_windows (s : State) (x : List Instr) : (s.withPending x).windows = s.windows := rfl
@[simp] theorem State.withPending_ports (s : State) (x : List Instr) : (s.withPending x).ports = s.ports := rfl
@[simp] theorem State.withPending_shared (s : State) (x : List Instr) : (s.withPending x).shared = s.shared := rfl
@[simp] theorem State.withPending_mku (s : State) (x : List Instr) : (s.withPending x).mku = s.mku := rfl
@[simp] theorem State.withPending_withPending (s : State) (x y : List Instr) : (s.withPending x).withPending y = s.withPending y := rfl
@[simp] theorem State.withPending_self (s : State) : s.withPending s.pending = s := rfl
@[simp] theorem State.withNow_pending (s : State) (x : Nat) : (s.withNow x).pending = s.pending := rfl
@[simp] theorem State.withNow_now (s : State) (x : Nat) : (s.withNow x).now = x := rfl
@[simp] theorem State.withNow_mu (s : State) (x : Nat) : (s.withNow x).mu = s.mu := rfl
@[simp] theorem State.withNow_ru (s : State) (x : Nat) : (s.withNow x).ru = s.ru := rfl
@[simp] theorem State.withNow_lanes (s : State) (x : Nat) : (s.withNow x).lanes = s.lanes := rfl
@[simp] theorem State.withNow_cb (s : State) (x : Nat) : (s.withNow x).cb = s.cb := rfl
@[simp] theorem State.withNow_le (s : State) (x : Nat) : (s.withNow x).le = s.le := rfl
@[simp] theorem State.withNow_bsc (s : State) (x : Nat) : (s.withNow x).bsc = s.bsc := rfl
@[simp] theorem State.withNow_dram (s : State) (x : Nat) : (s.withNow x).dram = s.dram := rfl
@[simp] theorem State.withNow_windows (s : State) (x : Nat) : (s.withNow x).windows = s.windows := rfl
@[simp] theorem State.withNow_ports (s : State) (x : Nat) : (s.withNow x).ports = s.ports := rfl
@[simp] theorem State.withNow_shared (s : State) (x : Nat) : (s.withNow x).shared = s.shared := rfl
@[simp] theorem State.withNow_mku (s : State) (x : Nat) : (s.withNow x).mku = s.mku := rfl
@[simp] theorem State.withNow_withNow (s : State) (x y : Nat) : (s.withNow x).withNow y = s.withNow y := rfl
@[simp] theorem State.withNow_self (s : State) : s.withNow s.now = s := rfl
@[simp] theorem State.withMu_pending (s : State) (x : MotionUnit) : (s.withMu x).pending = s.pending := rfl
@[simp] theorem State.withMu_now (s : State) (x : MotionUnit) : (s.withMu x).now = s.now := rfl
@[simp] theorem State.withMu_mu (s : State) (x : MotionUnit) : (s.withMu x).mu = x := rfl
@[simp] theorem State.withMu_ru (s : State) (x : MotionUnit) : (s.withMu x).ru = s.ru := rfl
@[simp] theorem State.withMu_lanes (s : State) (x : MotionUnit) : (s.withMu x).lanes = s.lanes := rfl
@[simp] theorem State.withMu_cb (s : State) (x : MotionUnit) : (s.withMu x).cb = s.cb := rfl
@[simp] theorem State.withMu_le (s : State) (x : MotionUnit) : (s.withMu x).le = s.le := rfl
@[simp] theorem State.withMu_bsc (s : State) (x : MotionUnit) : (s.withMu x).bsc = s.bsc := rfl
@[simp] theorem State.withMu_dram (s : State) (x : MotionUnit) : (s.withMu x).dram = s.dram := rfl
@[simp] theorem State.withMu_windows (s : State) (x : MotionUnit) : (s.withMu x).windows = s.windows := rfl
@[simp] theorem State.withMu_ports (s : State) (x : MotionUnit) : (s.withMu x).ports = s.ports := rfl
@[simp] theorem State.withMu_shared (s : State) (x : MotionUnit) : (s.withMu x).shared = s.shared := rfl
@[simp] theorem State.withMu_mku (s : State) (x : MotionUnit) : (s.withMu x).mku = s.mku := rfl
@[simp] theorem State.withMu_withMu (s : State) (x y : MotionUnit) : (s.withMu x).withMu y = s.withMu y := rfl
@[simp] theorem State.withMu_self (s : State) : s.withMu s.mu = s := rfl
@[simp] theorem State.withRu_pending (s : State) (x : RepeatUnit) : (s.withRu x).pending = s.pending := rfl
@[simp] theorem State.withRu_now (s : State) (x : RepeatUnit) : (s.withRu x).now = s.now := rfl
@[simp] theorem State.withRu_mu (s : State) (x : RepeatUnit) : (s.withRu x).mu = s.mu := rfl
@[simp] theorem State.withRu_ru (s : State) (x : RepeatUnit) : (s.withRu x).ru = x := rfl
@[simp] theorem State.withRu_lanes (s : State) (x : RepeatUnit) : (s.withRu x).lanes = s.lanes := rfl
@[simp] theorem State.withRu_cb (s : State) (x : RepeatUnit) : (s.withRu x).cb = s.cb := rfl
@[simp] theorem State.withRu_le (s : State) (x : RepeatUnit) : (s.withRu x).le = s.le := rfl
@[simp] theorem State.withRu_bsc (s : State) (x : RepeatUnit) : (s.withRu x).bsc = s.bsc := rfl
@[simp] theorem State.withRu_dram (s : State) (x : RepeatUnit) : (s.withRu x).dram = s.dram := rfl
@[simp] theorem State.withRu_windows (s : State) (x : RepeatUnit) : (s.withRu x).windows = s.windows := rfl
@[simp] theorem State.withRu_ports (s : State) (x : RepeatUnit) : (s.withRu x).ports = s.ports := rfl
@[simp] theorem State.withRu_shared (s : State) (x : RepeatUnit) : (s.withRu x).shared = s.shared := rfl
@[simp] theorem State.withRu_mku (s : State) (x : RepeatUnit) : (s.withRu x).mku = s.mku := rfl
@[simp] theorem State.withRu_withRu (s : State) (x y : RepeatUnit) : (s.withRu x).withRu y = s.withRu y := rfl
@[simp] theorem State.withRu_self (s : State) : s.withRu s.ru = s := rfl
@[simp] theorem State.withLanes_pending (s : State) (x : PerLane LaneFrontEnd) : (s.withLanes x).pending = s.pending := rfl
@[simp] theorem State.withLanes_now (s : State) (x : PerLane LaneFrontEnd) : (s.withLanes x).now = s.now := rfl
@[simp] theorem State.withLanes_mu (s : State) (x : PerLane LaneFrontEnd) : (s.withLanes x).mu = s.mu := rfl
@[simp] theorem State.withLanes_ru (s : State) (x : PerLane LaneFrontEnd) : (s.withLanes x).ru = s.ru := rfl
@[simp] theorem State.withLanes_lanes (s : State) (x : PerLane LaneFrontEnd) : (s.withLanes x).lanes = x := rfl
@[simp] theorem State.withLanes_cb (s : State) (x : PerLane LaneFrontEnd) : (s.withLanes x).cb = s.cb := rfl
@[simp] theorem State.withLanes_le (s : State) (x : PerLane LaneFrontEnd) : (s.withLanes x).le = s.le := rfl
@[simp] theorem State.withLanes_bsc (s : State) (x : PerLane LaneFrontEnd) : (s.withLanes x).bsc = s.bsc := rfl
@[simp] theorem State.withLanes_dram (s : State) (x : PerLane LaneFrontEnd) : (s.withLanes x).dram = s.dram := rfl
@[simp] theorem State.withLanes_windows (s : State) (x : PerLane LaneFrontEnd) : (s.withLanes x).windows = s.windows := rfl
@[simp] theorem State.withLanes_ports (s : State) (x : PerLane LaneFrontEnd) : (s.withLanes x).ports = s.ports := rfl
@[simp] theorem State.withLanes_shared (s : State) (x : PerLane LaneFrontEnd) : (s.withLanes x).shared = s.shared := rfl
@[simp] theorem State.withLanes_mku (s : State) (x : PerLane LaneFrontEnd) : (s.withLanes x).mku = s.mku := rfl
@[simp] theorem State.withLanes_withLanes (s : State) (x y : PerLane LaneFrontEnd) : (s.withLanes x).withLanes y = s.withLanes y := rfl
@[simp] theorem State.withLanes_self (s : State) : s.withLanes s.lanes = s := rfl
@[simp] theorem State.withCb_pending (s : State) (x : CorrectionBlock) : (s.withCb x).pending = s.pending := rfl
@[simp] theorem State.withCb_now (s : State) (x : CorrectionBlock) : (s.withCb x).now = s.now := rfl
@[simp] theorem State.withCb_mu (s : State) (x : CorrectionBlock) : (s.withCb x).mu = s.mu := rfl
@[simp] theorem State.withCb_ru (s : State) (x : CorrectionBlock) : (s.withCb x).ru = s.ru := rfl
@[simp] theorem State.withCb_lanes (s : State) (x : CorrectionBlock) : (s.withCb x).lanes = s.lanes := rfl
@[simp] theorem State.withCb_cb (s : State) (x : CorrectionBlock) : (s.withCb x).cb = x := rfl
@[simp] theorem State.withCb_le (s : State) (x : CorrectionBlock) : (s.withCb x).le = s.le := rfl
@[simp] theorem State.withCb_bsc (s : State) (x : CorrectionBlock) : (s.withCb x).bsc = s.bsc := rfl
@[simp] theorem State.withCb_dram (s : State) (x : CorrectionBlock) : (s.withCb x).dram = s.dram := rfl
@[simp] theorem State.withCb_windows (s : State) (x : CorrectionBlock) : (s.withCb x).windows = s.windows := rfl
@[simp] theorem State.withCb_ports (s : State) (x : CorrectionBlock) : (s.withCb x).ports = s.ports := rfl
@[simp] theorem State.withCb_shared (s : State) (x : CorrectionBlock) : (s.withCb x).shared = s.shared := rfl
@[simp] theorem State.withCb_mku (s : State) (x : CorrectionBlock) : (s.withCb x).mku = s.mku := rfl
@[simp] theorem State.withCb_withCb (s : State) (x y : CorrectionBlock) : (s.withCb x).withCb y = s.withCb y := rfl
@[simp] theorem State.withCb_self (s : State) : s.withCb s.cb = s := rfl
@[simp] theorem State.withLe_pending (s : State) (x : LevelingEngine) : (s.withLe x).pending = s.pending := rfl
@[simp] theorem State.withLe_now (s : State) (x : LevelingEngine) : (s.withLe x).now = s.now := rfl
@[simp] theorem State.withLe_mu (s : State) (x : LevelingEngine) : (s.withLe x).mu = s.mu := rfl
@[simp] theorem State.withLe_ru (s : State) (x : LevelingEngine) : (s.withLe x).ru = s.ru := rfl
@[simp] theorem State.withLe_lanes (s : State) (x : LevelingEngine) : (s.withLe x).lanes = s.lanes := rfl
@[simp] theorem State.withLe_cb (s : State) (x : LevelingEngine) : (s.withLe x).cb = s.cb := rfl
@[simp] theorem State.withLe_le (s : State) (x : LevelingEngine) : (s.withLe x).le = x := rfl
@[simp] theorem State.withLe_bsc (s : State) (x : LevelingEngine) : (s.withLe x).bsc = s.bsc := rfl
@[simp] theorem State.withLe_dram (s : State) (x : LevelingEngine) : (s.withLe x).dram = s.dram := rfl
@[simp] theorem State.withLe_windows (s : State) (x : LevelingEngine) : (s.withLe x).windows = s.windows := rfl
@[simp] theorem State.withLe_ports (s : State) (x : LevelingEngine) : (s.withLe x).ports = s.ports := rfl
@[simp] theorem State.withLe_shared (s : State) (x : LevelingEngine) : (s.withLe x).shared = s.shared := rfl
@[simp] theorem State.withLe_mku (s : State) (x : LevelingEngine) : (s.withLe x).mku = s.mku := rfl
@[simp] theorem State.withLe_withLe (s : State) (x y : LevelingEngine) : (s.withLe x).withLe y = s.withLe y := rfl
@[simp] theorem State.withLe_self (s : State) : s.withLe s.le = s := rfl
@[simp] theorem State.withBsc_pending (s : State) (x : BandStore) : (s.withBsc x).pending = s.pending := rfl
@[simp] theorem State.withBsc_now (s : State) (x : BandStore) : (s.withBsc x).now = s.now := rfl
@[simp] theorem State.withBsc_mu (s : State) (x : BandStore) : (s.withBsc x).mu = s.mu := rfl
@[simp] theorem State.withBsc_ru (s : State) (x : BandStore) : (s.withBsc x).ru = s.ru := rfl
@[simp] theorem State.withBsc_lanes (s : State) (x : BandStore) : (s.withBsc x).lanes = s.lanes := rfl
@[simp] theorem State.withBsc_cb (s : State) (x : BandStore) : (s.withBsc x).cb = s.cb := rfl
@[simp] theorem State.withBsc_le (s : State) (x : BandStore) : (s.withBsc x).le = s.le := rfl
@[simp] theorem State.withBsc_bsc (s : State) (x : BandStore) : (s.withBsc x).bsc = x := rfl
@[simp] theorem State.withBsc_dram (s : State) (x : BandStore) : (s.withBsc x).dram = s.dram := rfl
@[simp] theorem State.withBsc_windows (s : State) (x : BandStore) : (s.withBsc x).windows = s.windows := rfl
@[simp] theorem State.withBsc_ports (s : State) (x : BandStore) : (s.withBsc x).ports = s.ports := rfl
@[simp] theorem State.withBsc_shared (s : State) (x : BandStore) : (s.withBsc x).shared = s.shared := rfl
@[simp] theorem State.withBsc_mku (s : State) (x : BandStore) : (s.withBsc x).mku = s.mku := rfl
@[simp] theorem State.withBsc_withBsc (s : State) (x y : BandStore) : (s.withBsc x).withBsc y = s.withBsc y := rfl
@[simp] theorem State.withBsc_self (s : State) : s.withBsc s.bsc = s := rfl
@[simp] theorem State.withDram_pending (s : State) (x : List Host.Cell) : (s.withDram x).pending = s.pending := rfl
@[simp] theorem State.withDram_now (s : State) (x : List Host.Cell) : (s.withDram x).now = s.now := rfl
@[simp] theorem State.withDram_mu (s : State) (x : List Host.Cell) : (s.withDram x).mu = s.mu := rfl
@[simp] theorem State.withDram_ru (s : State) (x : List Host.Cell) : (s.withDram x).ru = s.ru := rfl
@[simp] theorem State.withDram_lanes (s : State) (x : List Host.Cell) : (s.withDram x).lanes = s.lanes := rfl
@[simp] theorem State.withDram_cb (s : State) (x : List Host.Cell) : (s.withDram x).cb = s.cb := rfl
@[simp] theorem State.withDram_le (s : State) (x : List Host.Cell) : (s.withDram x).le = s.le := rfl
@[simp] theorem State.withDram_bsc (s : State) (x : List Host.Cell) : (s.withDram x).bsc = s.bsc := rfl
@[simp] theorem State.withDram_dram (s : State) (x : List Host.Cell) : (s.withDram x).dram = x := rfl
@[simp] theorem State.withDram_windows (s : State) (x : List Host.Cell) : (s.withDram x).windows = s.windows := rfl
@[simp] theorem State.withDram_ports (s : State) (x : List Host.Cell) : (s.withDram x).ports = s.ports := rfl
@[simp] theorem State.withDram_shared (s : State) (x : List Host.Cell) : (s.withDram x).shared = s.shared := rfl
@[simp] theorem State.withDram_mku (s : State) (x : List Host.Cell) : (s.withDram x).mku = s.mku := rfl
@[simp] theorem State.withDram_withDram (s : State) (x y : List Host.Cell) : (s.withDram x).withDram y = s.withDram y := rfl
@[simp] theorem State.withDram_self (s : State) : s.withDram s.dram = s := rfl
@[simp] theorem State.withWindows_pending (s : State) (x : List (Nat × Window)) : (s.withWindows x).pending = s.pending := rfl
@[simp] theorem State.withWindows_now (s : State) (x : List (Nat × Window)) : (s.withWindows x).now = s.now := rfl
@[simp] theorem State.withWindows_mu (s : State) (x : List (Nat × Window)) : (s.withWindows x).mu = s.mu := rfl
@[simp] theorem State.withWindows_ru (s : State) (x : List (Nat × Window)) : (s.withWindows x).ru = s.ru := rfl
@[simp] theorem State.withWindows_lanes (s : State) (x : List (Nat × Window)) : (s.withWindows x).lanes = s.lanes := rfl
@[simp] theorem State.withWindows_cb (s : State) (x : List (Nat × Window)) : (s.withWindows x).cb = s.cb := rfl
@[simp] theorem State.withWindows_le (s : State) (x : List (Nat × Window)) : (s.withWindows x).le = s.le := rfl
@[simp] theorem State.withWindows_bsc (s : State) (x : List (Nat × Window)) : (s.withWindows x).bsc = s.bsc := rfl
@[simp] theorem State.withWindows_dram (s : State) (x : List (Nat × Window)) : (s.withWindows x).dram = s.dram := rfl
@[simp] theorem State.withWindows_windows (s : State) (x : List (Nat × Window)) : (s.withWindows x).windows = x := rfl
@[simp] theorem State.withWindows_ports (s : State) (x : List (Nat × Window)) : (s.withWindows x).ports = s.ports := rfl
@[simp] theorem State.withWindows_shared (s : State) (x : List (Nat × Window)) : (s.withWindows x).shared = s.shared := rfl
@[simp] theorem State.withWindows_mku (s : State) (x : List (Nat × Window)) : (s.withWindows x).mku = s.mku := rfl
@[simp] theorem State.withWindows_withWindows (s : State) (x y : List (Nat × Window)) : (s.withWindows x).withWindows y = s.withWindows y := rfl
@[simp] theorem State.withWindows_self (s : State) : s.withWindows s.windows = s := rfl
@[simp] theorem State.withPorts_pending (s : State) (x : PerPort ConsumerPort) : (s.withPorts x).pending = s.pending := rfl
@[simp] theorem State.withPorts_now (s : State) (x : PerPort ConsumerPort) : (s.withPorts x).now = s.now := rfl
@[simp] theorem State.withPorts_mu (s : State) (x : PerPort ConsumerPort) : (s.withPorts x).mu = s.mu := rfl
@[simp] theorem State.withPorts_ru (s : State) (x : PerPort ConsumerPort) : (s.withPorts x).ru = s.ru := rfl
@[simp] theorem State.withPorts_lanes (s : State) (x : PerPort ConsumerPort) : (s.withPorts x).lanes = s.lanes := rfl
@[simp] theorem State.withPorts_cb (s : State) (x : PerPort ConsumerPort) : (s.withPorts x).cb = s.cb := rfl
@[simp] theorem State.withPorts_le (s : State) (x : PerPort ConsumerPort) : (s.withPorts x).le = s.le := rfl
@[simp] theorem State.withPorts_bsc (s : State) (x : PerPort ConsumerPort) : (s.withPorts x).bsc = s.bsc := rfl
@[simp] theorem State.withPorts_dram (s : State) (x : PerPort ConsumerPort) : (s.withPorts x).dram = s.dram := rfl
@[simp] theorem State.withPorts_windows (s : State) (x : PerPort ConsumerPort) : (s.withPorts x).windows = s.windows := rfl
@[simp] theorem State.withPorts_ports (s : State) (x : PerPort ConsumerPort) : (s.withPorts x).ports = x := rfl
@[simp] theorem State.withPorts_shared (s : State) (x : PerPort ConsumerPort) : (s.withPorts x).shared = s.shared := rfl
@[simp] theorem State.withPorts_mku (s : State) (x : PerPort ConsumerPort) : (s.withPorts x).mku = s.mku := rfl
@[simp] theorem State.withPorts_withPorts (s : State) (x y : PerPort ConsumerPort) : (s.withPorts x).withPorts y = s.withPorts y := rfl
@[simp] theorem State.withPorts_self (s : State) : s.withPorts s.ports = s := rfl
@[simp] theorem State.withShared_pending (s : State) (x : SharedRecord) : (s.withShared x).pending = s.pending := rfl
@[simp] theorem State.withShared_now (s : State) (x : SharedRecord) : (s.withShared x).now = s.now := rfl
@[simp] theorem State.withShared_mu (s : State) (x : SharedRecord) : (s.withShared x).mu = s.mu := rfl
@[simp] theorem State.withShared_ru (s : State) (x : SharedRecord) : (s.withShared x).ru = s.ru := rfl
@[simp] theorem State.withShared_lanes (s : State) (x : SharedRecord) : (s.withShared x).lanes = s.lanes := rfl
@[simp] theorem State.withShared_cb (s : State) (x : SharedRecord) : (s.withShared x).cb = s.cb := rfl
@[simp] theorem State.withShared_le (s : State) (x : SharedRecord) : (s.withShared x).le = s.le := rfl
@[simp] theorem State.withShared_bsc (s : State) (x : SharedRecord) : (s.withShared x).bsc = s.bsc := rfl
@[simp] theorem State.withShared_dram (s : State) (x : SharedRecord) : (s.withShared x).dram = s.dram := rfl
@[simp] theorem State.withShared_windows (s : State) (x : SharedRecord) : (s.withShared x).windows = s.windows := rfl
@[simp] theorem State.withShared_ports (s : State) (x : SharedRecord) : (s.withShared x).ports = s.ports := rfl
@[simp] theorem State.withShared_shared (s : State) (x : SharedRecord) : (s.withShared x).shared = x := rfl
@[simp] theorem State.withShared_mku (s : State) (x : SharedRecord) : (s.withShared x).mku = s.mku := rfl
@[simp] theorem State.withShared_withShared (s : State) (x y : SharedRecord) : (s.withShared x).withShared y = s.withShared y := rfl
@[simp] theorem State.withShared_self (s : State) : s.withShared s.shared = s := rfl
@[simp] theorem State.withMku_pending (s : State) (x : MarkerUnit) : (s.withMku x).pending = s.pending := rfl
@[simp] theorem State.withMku_now (s : State) (x : MarkerUnit) : (s.withMku x).now = s.now := rfl
@[simp] theorem State.withMku_mu (s : State) (x : MarkerUnit) : (s.withMku x).mu = s.mu := rfl
@[simp] theorem State.withMku_ru (s : State) (x : MarkerUnit) : (s.withMku x).ru = s.ru := rfl
@[simp] theorem State.withMku_lanes (s : State) (x : MarkerUnit) : (s.withMku x).lanes = s.lanes := rfl
@[simp] theorem State.withMku_cb (s : State) (x : MarkerUnit) : (s.withMku x).cb = s.cb := rfl
@[simp] theorem State.withMku_le (s : State) (x : MarkerUnit) : (s.withMku x).le = s.le := rfl
@[simp] theorem State.withMku_bsc (s : State) (x : MarkerUnit) : (s.withMku x).bsc = s.bsc := rfl
@[simp] theorem State.withMku_dram (s : State) (x : MarkerUnit) : (s.withMku x).dram = s.dram := rfl
@[simp] theorem State.withMku_windows (s : State) (x : MarkerUnit) : (s.withMku x).windows = s.windows := rfl
@[simp] theorem State.withMku_ports (s : State) (x : MarkerUnit) : (s.withMku x).ports = s.ports := rfl
@[simp] theorem State.withMku_shared (s : State) (x : MarkerUnit) : (s.withMku x).shared = s.shared := rfl
@[simp] theorem State.withMku_mku (s : State) (x : MarkerUnit) : (s.withMku x).mku = x := rfl
@[simp] theorem State.withMku_withMku (s : State) (x y : MarkerUnit) : (s.withMku x).withMku y = s.withMku y := rfl
@[simp] theorem State.withMku_self (s : State) : s.withMku s.mku = s := rfl

/-! ### Ports, lanes and outputs -/

@[simp] theorem PerPort.get_set_self {α : Type} (t : PerPort α) (p : Port) (x : α) : (t.set p x).get p = x := by
  cases p <;> rfl

theorem PerPort.get_set_ne {α : Type} (t : PerPort α) {p q : Port} (x : α) (h : q ≠ p) : (t.set p x).get q = t.get q := by
  cases p <;> cases q <;> first | rfl | exact absurd rfl h

theorem PerPort.get_set {α : Type} (t : PerPort α) (p q : Port) (x : α) : (t.set p x).get q = if q = p then x else t.get q := by
  cases p <;> cases q <;> rfl

@[simp] theorem PerPort.get_map {α β : Type} (f : Port → α → β) (t : PerPort α) (p : Port) : (t.map f).get p = f p (t.get p) := by
  cases p <;> rfl

@[simp] theorem PerPort.get_all {α : Type} (x : α) (p : Port) : (PerPort.all x).get p = x := by cases p <;> rfl

theorem PerPort.ext_get {α : Type} {t u : PerPort α} (h : ∀ p, t.get p = u.get p) : t = u := by
  cases t; cases u
  simpa [PerPort.get] using And.intro (h .c0) (And.intro (h .c1) (And.intro (h .c2) (h .c3)))

@[simp] theorem PerPort.set_get {α : Type} (t : PerPort α) (p : Port) : t.set p (t.get p) = t := by cases p <;> rfl

@[simp] theorem PerPort.set_set {α : Type} (t : PerPort α) (p : Port) (x y : α) : (t.set p x).set p y = t.set p y := by
  cases p <;> rfl

@[simp] theorem PerLane.get_set_self {α : Type} (t : PerLane α) (k : Lane) (x : α) : (t.set k x).get k = x := by
  cases k <;> rfl

theorem PerLane.get_set_ne {α : Type} (t : PerLane α) {k j : Lane} (x : α) (h : j ≠ k) : (t.set k x).get j = t.get j := by
  cases k <;> cases j <;> first | rfl | exact absurd rfl h

theorem PerLane.get_set {α : Type} (t : PerLane α) (k j : Lane) (x : α) : (t.set k x).get j = if j = k then x else t.get j := by
  cases k <;> cases j <;> rfl

@[simp] theorem PerLane.get_map {α β : Type} (f : Lane → α → β) (t : PerLane α) (k : Lane) : (t.map f).get k = f k (t.get k) := by
  cases k <;> rfl

@[simp] theorem PerLane.get_all {α : Type} (x : α) (k : Lane) : (PerLane.all x).get k = x := by cases k <;> rfl

@[simp] theorem PerLane.set_get {α : Type} (t : PerLane α) (k : Lane) : t.set k (t.get k) = t := by cases k <;> rfl

@[simp] theorem PerLane.set_set {α : Type} (t : PerLane α) (k : Lane) (x y : α) : (t.set k x).set k y = t.set k y := by
  cases k <;> rfl

@[simp] theorem PerOutput.get_set_self {α : Type} (t : PerOutput α) (o : Output) (x : α) : (t.set o x).get o = x := by
  cases o <;> rfl

theorem PerOutput.get_set_ne {α : Type} (t : PerOutput α) {o n : Output} (x : α) (h : n ≠ o) : (t.set o x).get n = t.get n := by
  cases o <;> cases n <;> first | rfl | exact absurd rfl h

/-! ### The state's own accessors -/

@[simp] theorem State.port_setPort_self (s : State) (p : Port) (c : ConsumerPort) : (s.setPort p c).port p = c :=
  PerPort.get_set_self s.ports p c

theorem State.port_setPort_ne (s : State) {p q : Port} (c : ConsumerPort) (h : q ≠ p) : (s.setPort p c).port q = s.port q :=
  PerPort.get_set_ne s.ports c h

theorem State.port_setPort (s : State) (p q : Port) (c : ConsumerPort) :
    (s.setPort p c).port q = if q = p then c else s.port q := PerPort.get_set s.ports p q c

@[simp] theorem State.setPort_setPort (s : State) (p : Port) (c d : ConsumerPort) : (s.setPort p c).setPort p d = s.setPort p d := by
  cases p <;> rfl

@[simp] theorem State.setPort_self (s : State) (p : Port) : s.setPort p (s.port p) = s := by cases p <;> rfl

@[simp] theorem State.lane_setLane_self (s : State) (k : Lane) (x : LaneFrontEnd) : (s.setLane k x).lane k = x :=
  PerLane.get_set_self s.lanes k x

theorem State.lane_setLane_ne (s : State) {k j : Lane} (x : LaneFrontEnd) (h : j ≠ k) : (s.setLane k x).lane j = s.lane j :=
  PerLane.get_set_ne s.lanes x h

theorem State.lane_setLane (s : State) (k j : Lane) (x : LaneFrontEnd) :
    (s.setLane k x).lane j = if j = k then x else s.lane j := PerLane.get_set s.lanes k j x
@[simp] theorem State.setPort_pending (s : State) (p : Port) (c : ConsumerPort) : (s.setPort p c).pending = s.pending := rfl
@[simp] theorem State.port_withPending (s : State) (x : List Instr) (p : Port) : (s.withPending x).port p = s.port p := rfl
@[simp] theorem State.setLane_pending (s : State) (k : Lane) (l : LaneFrontEnd) : (s.setLane k l).pending = s.pending := rfl
@[simp] theorem State.lane_withPending (s : State) (x : List Instr) (k : Lane) : (s.withPending x).lane k = s.lane k := rfl
@[simp] theorem State.setPort_now (s : State) (p : Port) (c : ConsumerPort) : (s.setPort p c).now = s.now := rfl
@[simp] theorem State.port_withNow (s : State) (x : Nat) (p : Port) : (s.withNow x).port p = s.port p := rfl
@[simp] theorem State.setLane_now (s : State) (k : Lane) (l : LaneFrontEnd) : (s.setLane k l).now = s.now := rfl
@[simp] theorem State.lane_withNow (s : State) (x : Nat) (k : Lane) : (s.withNow x).lane k = s.lane k := rfl
@[simp] theorem State.setPort_mu (s : State) (p : Port) (c : ConsumerPort) : (s.setPort p c).mu = s.mu := rfl
@[simp] theorem State.port_withMu (s : State) (x : MotionUnit) (p : Port) : (s.withMu x).port p = s.port p := rfl
@[simp] theorem State.setLane_mu (s : State) (k : Lane) (l : LaneFrontEnd) : (s.setLane k l).mu = s.mu := rfl
@[simp] theorem State.lane_withMu (s : State) (x : MotionUnit) (k : Lane) : (s.withMu x).lane k = s.lane k := rfl
@[simp] theorem State.setPort_ru (s : State) (p : Port) (c : ConsumerPort) : (s.setPort p c).ru = s.ru := rfl
@[simp] theorem State.port_withRu (s : State) (x : RepeatUnit) (p : Port) : (s.withRu x).port p = s.port p := rfl
@[simp] theorem State.setLane_ru (s : State) (k : Lane) (l : LaneFrontEnd) : (s.setLane k l).ru = s.ru := rfl
@[simp] theorem State.lane_withRu (s : State) (x : RepeatUnit) (k : Lane) : (s.withRu x).lane k = s.lane k := rfl
@[simp] theorem State.setPort_lanes (s : State) (p : Port) (c : ConsumerPort) : (s.setPort p c).lanes = s.lanes := rfl
@[simp] theorem State.port_withLanes (s : State) (x : PerLane LaneFrontEnd) (p : Port) : (s.withLanes x).port p = s.port p := rfl
@[simp] theorem State.setPort_cb (s : State) (p : Port) (c : ConsumerPort) : (s.setPort p c).cb = s.cb := rfl
@[simp] theorem State.port_withCb (s : State) (x : CorrectionBlock) (p : Port) : (s.withCb x).port p = s.port p := rfl
@[simp] theorem State.setLane_cb (s : State) (k : Lane) (l : LaneFrontEnd) : (s.setLane k l).cb = s.cb := rfl
@[simp] theorem State.lane_withCb (s : State) (x : CorrectionBlock) (k : Lane) : (s.withCb x).lane k = s.lane k := rfl
@[simp] theorem State.setPort_le (s : State) (p : Port) (c : ConsumerPort) : (s.setPort p c).le = s.le := rfl
@[simp] theorem State.port_withLe (s : State) (x : LevelingEngine) (p : Port) : (s.withLe x).port p = s.port p := rfl
@[simp] theorem State.setLane_le (s : State) (k : Lane) (l : LaneFrontEnd) : (s.setLane k l).le = s.le := rfl
@[simp] theorem State.lane_withLe (s : State) (x : LevelingEngine) (k : Lane) : (s.withLe x).lane k = s.lane k := rfl
@[simp] theorem State.setPort_bsc (s : State) (p : Port) (c : ConsumerPort) : (s.setPort p c).bsc = s.bsc := rfl
@[simp] theorem State.port_withBsc (s : State) (x : BandStore) (p : Port) : (s.withBsc x).port p = s.port p := rfl
@[simp] theorem State.setLane_bsc (s : State) (k : Lane) (l : LaneFrontEnd) : (s.setLane k l).bsc = s.bsc := rfl
@[simp] theorem State.lane_withBsc (s : State) (x : BandStore) (k : Lane) : (s.withBsc x).lane k = s.lane k := rfl
@[simp] theorem State.setPort_dram (s : State) (p : Port) (c : ConsumerPort) : (s.setPort p c).dram = s.dram := rfl
@[simp] theorem State.port_withDram (s : State) (x : List Host.Cell) (p : Port) : (s.withDram x).port p = s.port p := rfl
@[simp] theorem State.setLane_dram (s : State) (k : Lane) (l : LaneFrontEnd) : (s.setLane k l).dram = s.dram := rfl
@[simp] theorem State.lane_withDram (s : State) (x : List Host.Cell) (k : Lane) : (s.withDram x).lane k = s.lane k := rfl
@[simp] theorem State.setPort_windows (s : State) (p : Port) (c : ConsumerPort) : (s.setPort p c).windows = s.windows := rfl
@[simp] theorem State.port_withWindows (s : State) (x : List (Nat × Window)) (p : Port) : (s.withWindows x).port p = s.port p := rfl
@[simp] theorem State.setLane_windows (s : State) (k : Lane) (l : LaneFrontEnd) : (s.setLane k l).windows = s.windows := rfl
@[simp] theorem State.lane_withWindows (s : State) (x : List (Nat × Window)) (k : Lane) : (s.withWindows x).lane k = s.lane k := rfl
@[simp] theorem State.setLane_ports (s : State) (k : Lane) (l : LaneFrontEnd) : (s.setLane k l).ports = s.ports := rfl
@[simp] theorem State.lane_withPorts (s : State) (x : PerPort ConsumerPort) (k : Lane) : (s.withPorts x).lane k = s.lane k := rfl
@[simp] theorem State.setPort_shared (s : State) (p : Port) (c : ConsumerPort) : (s.setPort p c).shared = s.shared := rfl
@[simp] theorem State.port_withShared (s : State) (x : SharedRecord) (p : Port) : (s.withShared x).port p = s.port p := rfl
@[simp] theorem State.setLane_shared (s : State) (k : Lane) (l : LaneFrontEnd) : (s.setLane k l).shared = s.shared := rfl
@[simp] theorem State.lane_withShared (s : State) (x : SharedRecord) (k : Lane) : (s.withShared x).lane k = s.lane k := rfl
@[simp] theorem State.setPort_mku (s : State) (p : Port) (c : ConsumerPort) : (s.setPort p c).mku = s.mku := rfl
@[simp] theorem State.port_withMku (s : State) (x : MarkerUnit) (p : Port) : (s.withMku x).port p = s.port p := rfl
@[simp] theorem State.setLane_mku (s : State) (k : Lane) (l : LaneFrontEnd) : (s.setLane k l).mku = s.mku := rfl
@[simp] theorem State.lane_withMku (s : State) (x : MarkerUnit) (k : Lane) : (s.withMku x).lane k = s.lane k := rfl
@[simp] theorem State.setPort_ports (s : State) (p : Port) (c : ConsumerPort) : (s.setPort p c).ports = s.ports.set p c := rfl
@[simp] theorem State.setLane_lanes (s : State) (k : Lane) (l : LaneFrontEnd) : (s.setLane k l).lanes = s.lanes.set k l := rfl
@[simp] theorem State.lane_setPort (s : State) (p : Port) (c : ConsumerPort) (k : Lane) : (s.setPort p c).lane k = s.lane k := rfl
@[simp] theorem State.port_setLane (s : State) (k : Lane) (l : LaneFrontEnd) (p : Port) : (s.setLane k l).port p = s.port p := rfl

end Sys2Proof.Machine
end

