-- ==== Sys2Proof/Laws/Notices.lean ====
section
/-!
SUPPORT. Sets of notice kinds, and what the raising of a kind does at each port.
-/

namespace Sys2Proof.Machine

/-! ### Sets of kinds -/

theorem NoticeSet.has_add (kinds : NoticeSet) (k j : NoticeKind) :
    NoticeSet.has (NoticeSet.add kinds k) j = (decide (j = k) || NoticeSet.has kinds j) := by
  revert kinds
  cases k <;> cases j <;> intro kinds <;>
    simp [NoticeSet.has, NoticeSet.add, noticeBit, noticeCode]

theorem NoticeSet.has_remove (kinds : NoticeSet) (k j : NoticeKind) :
    NoticeSet.has (NoticeSet.remove kinds k) j = (!decide (j = k) && NoticeSet.has kinds j) := by
  revert kinds
  cases k <;> cases j <;> intro kinds <;>
    simp [NoticeSet.has, NoticeSet.remove, noticeBit, noticeCode]

/-- A kind that is in a set joins it without a change (R171). -/
theorem NoticeSet.add_of_has {kinds : NoticeSet} {k : NoticeKind} (h : NoticeSet.has kinds k = true) : NoticeSet.add kinds k = kinds := by
  apply BitVec.eq_of_getLsbD_eq
  intro i _
  rw [NoticeSet.add, BitVec.getLsbD_or]
  by_cases hb : (noticeBit k).getLsbD i = true
  · have hi : i = noticeCode k := by
      rw [noticeBit, BitVec.getLsbD_ofNat, Bool.and_eq_true] at hb
      have h2 := hb.2
      rw [Nat.testBit_two_pow] at h2
      exact (decide_eq_true_eq.mp h2).symm
    subst hi
    have h' : kinds.getLsbD (noticeCode k) = true := h
    rw [h']; simp
  · rw [Bool.not_eq_true] at hb
    rw [hb]; simp

/-! ### A kind raised at one port (R171) -/

theorem raisePort_pendingSet (k : NoticeKind) (c : ConsumerPort) : (raisePort k c).pendingSet = NoticeSet.add c.pendingSet k := by
  unfold raisePort
  split
  · next h => exact (NoticeSet.add_of_has h).symm
  · rfl

/-- Everything that the raising of a kind can do at a port. -/
theorem raisePort_spec (k : NoticeKind) (c : ConsumerPort) :
    raisePort k c = { c with
      pendingSet := NoticeSet.add c.pendingSet k
      notice := if NoticeSet.has c.pendingSet k = false ∧ NoticeSet.has c.mask k = true then some (NoticeSet.add (c.notice.getD 0) k)
        else c.notice } := by
  unfold raisePort
  by_cases h : NoticeSet.has c.pendingSet k = true
  · rw [if_pos h, NoticeSet.add_of_has h]; simp [h]
  · rw [if_neg h]; simp [h]

@[simp] theorem raisePort_state (k : NoticeKind) (c : ConsumerPort) : (raisePort k c).state = c.state := by simp [raisePort_spec]
@[simp] theorem raisePort_linkUp (k : NoticeKind) (c : ConsumerPort) : (raisePort k c).linkUp = c.linkUp := by simp [raisePort_spec]
@[simp] theorem raisePort_credit (k : NoticeKind) (c : ConsumerPort) : (raisePort k c).credit = c.credit := by simp [raisePort_spec]
@[simp] theorem raisePort_essential (k : NoticeKind) (c : ConsumerPort) : (raisePort k c).essential = c.essential := by simp [raisePort_spec]
@[simp] theorem raisePort_sheddable (k : NoticeKind) (c : ConsumerPort) : (raisePort k c).sheddable = c.sheddable := by simp [raisePort_spec]
@[simp] theorem raisePort_outbound (k : NoticeKind) (c : ConsumerPort) : (raisePort k c).outbound = c.outbound := by simp [raisePort_spec]
@[simp] theorem raisePort_stall (k : NoticeKind) (c : ConsumerPort) : (raisePort k c).stall = c.stall := by simp [raisePort_spec]
@[simp] theorem raisePort_requests (k : NoticeKind) (c : ConsumerPort) : (raisePort k c).requests = c.requests := by simp [raisePort_spec]
@[simp] theorem raisePort_responses (k : NoticeKind) (c : ConsumerPort) : (raisePort k c).responses = c.responses := by simp [raisePort_spec]
@[simp] theorem raisePort_mask (k : NoticeKind) (c : ConsumerPort) : (raisePort k c).mask = c.mask := by simp [raisePort_spec]
@[simp] theorem raisePort_sent (k : NoticeKind) (c : ConsumerPort) : (raisePort k c).sent = c.sent := by simp [raisePort_spec]
@[simp] theorem raisePort_dropped (k : NoticeKind) (c : ConsumerPort) : (raisePort k c).dropped = c.dropped := by simp [raisePort_spec]
@[simp] theorem raisePort_errors (k : NoticeKind) (c : ConsumerPort) : (raisePort k c).errors = c.errors := by simp [raisePort_spec]

/-! ### A kind raised at a set of ports (R170) -/

/-- Everything that the raising of a kind does: at the selected ports what `raisePort` does, nothing elsewhere. -/
theorem raiseWhere_port (sel : Port → ConsumerPort → Bool) (k : NoticeKind) (s : State) (p : Port) :
    (raiseWhere sel k s).port p = if sel p (s.port p) then raisePort k (s.port p) else s.port p := by
  show ((s.ports.map fun p c => if sel p c then raisePort k c else c)).get p = _
  rw [PerPort.get_map]; rfl

theorem raiseWhere_pendingSet (sel : Port → ConsumerPort → Bool) (k : NoticeKind) (s : State) (p : Port) :
    ((raiseWhere sel k s).port p).pendingSet
      = if sel p (s.port p) then NoticeSet.add (s.port p).pendingSet k else (s.port p).pendingSet := by
  rw [raiseWhere_port]
  split
  · exact raisePort_pendingSet k _
  · rfl

/-- What every raising leaves as it is at a port: all but the pending set and the waiting notice frame. -/
theorem raiseWhere_kept (sel : Port → ConsumerPort → Bool) (k : NoticeKind) (s : State) (p : Port) :
    ∃ pending notice, (raiseWhere sel k s).port p = { s.port p with pendingSet := pending, notice := notice } := by
  rw [raiseWhere_port]
  split
  · exact ⟨_, _, raisePort_spec k _⟩
  · exact ⟨_, _, rfl⟩

end Sys2Proof.Machine
end

