-- ==== Sys2Proof/Laws/Tables.lean ====
section
/-!
SUPPORT. The laws of the sparse tables and of the DRAM store: what a number reads as after a write, and the canonical form.
-/

namespace Sys2Proof.Machine

/-! ### Reading -/

theorem tableGet_append {α : Type} (t u : List (Nat × α)) (k : Nat) : tableGet (t ++ u) k = (tableGet t k).or (tableGet u k) := by
  induction t with
  | nil => simp [tableGet]
  | cons e t ih => by_cases h : e.1 = k <;> simp [tableGet, h, ih]

theorem tableGet_filter {α : Type} (P : Nat → Prop) [DecidablePred P] (t : List (Nat × α)) (k : Nat) :
    tableGet (t.filter fun e => decide (P e.1)) k = if P k then tableGet t k else none := by
  induction t with
  | nil => simp [tableGet]
  | cons e t ih =>
    by_cases hp : P e.1
    · by_cases h : e.1 = k
      · subst h; simp [hp, tableGet]
      · simp [hp, tableGet, h, ih]
    · by_cases h : e.1 = k
      · subst h; simp [hp, ih]
      · simp [hp, tableGet, h, ih]

/-- A replaced number reads as the run gives it, any other as before. -/
theorem tableGet_splice {α : Type} (t run : List (Nat × α)) (a n k : Nat) (inside : ∀ e ∈ run, a ≤ e.1 ∧ e.1 < a + n) :
    tableGet (tableSplice t a n run) k = if a ≤ k ∧ k < a + n then tableGet run k else tableGet t k := by
  have outside : ∀ run : List (Nat × α), (∀ e ∈ run, a ≤ e.1 ∧ e.1 < a + n) → ¬(a ≤ k ∧ k < a + n) → tableGet run k = none := by
    intro run
    induction run with
    | nil => intros; rfl
    | cons e run ih =>
      intro h hk
      have he := h e (by simp)
      rw [tableGet, if_neg (by omega)]
      exact ih (fun x hx => h x (by simp [hx])) hk
  unfold tableSplice
  rw [tableGet_append, tableGet_append, tableGet_filter (fun i => i < a), tableGet_filter (fun i => a + n ≤ i)]
  by_cases hk : a ≤ k ∧ k < a + n
  · rw [if_pos hk, if_neg (by omega), if_neg (by omega)]; simp
  · rw [if_neg hk, outside run inside hk]
    by_cases h1 : k < a
    · rw [if_pos h1, if_neg (by omega)]; simp
    · rw [if_neg h1, if_pos (by omega)]; simp

theorem tableGet_put {α : Type} (t : List (Nat × α)) (i k : Nat) (x : α) :
    tableGet (tablePut t i x) k = if k = i then some x else tableGet t k := by
  unfold tablePut
  rw [tableGet_splice _ _ _ _ _ (by simp)]
  by_cases h : k = i
  · subst h; simp [tableGet]
  · rw [if_neg (by omega), if_neg h]

theorem tableGet_erase {α : Type} (t : List (Nat × α)) (i k : Nat) :
    tableGet (tableErase t i) k = if k = i then none else tableGet t k := by
  unfold tableErase
  rw [tableGet_splice _ _ _ _ _ (by simp)]
  by_cases h : k = i
  · subst h; simp [tableGet]
  · rw [if_neg (by omega), if_neg h]

/-- A run's numbers lie in its range, and none of its values is the default. -/
theorem tableRun_inside {α : Type} [DecidableEq α] (d : α) (xs : List α) :
    ∀ a, ∀ e ∈ tableRun d a xs, (a ≤ e.1 ∧ e.1 < a + xs.length) ∧ e.2 ≠ d := by
  induction xs with
  | nil => simp [tableRun]
  | cons x xs ih =>
    intro a e he
    have next := ih (a + 1) e
    unfold tableRun at he
    split at he
    · have := next he
      simp only [List.length_cons]
      exact ⟨by omega, this.2⟩
    · rcases List.mem_cons.mp he with rfl | he
      · exact ⟨by simp, by assumption⟩
      · have := next he
        simp only [List.length_cons]
        exact ⟨by omega, this.2⟩

theorem tableGet_run {α : Type} [DecidableEq α] (d : α) (xs : List α) :
    ∀ a k, a ≤ k → (tableGet (tableRun d a xs) k).getD d = xs[k - a]?.getD d := by
  induction xs with
  | nil => simp [tableRun, tableGet]
  | cons x xs ih =>
    intro a k h
    rcases Nat.eq_or_lt_of_le h with rfl | hk
    · unfold tableRun
      split
      next hx =>
        have none : tableGet (tableRun d (a + 1) xs) a = Option.none := by
          cases hg : tableGet (tableRun d (a + 1) xs) a with
          | none => rfl
          | some y =>
            exfalso
            have mem : ∀ t : List (Nat × α), tableGet t a = some y → (a, y) ∈ t := by
              intro t
              induction t with
              | nil => simp [tableGet]
              | cons e t iht =>
                unfold tableGet
                split
                next he => rintro ⟨⟩; subst he; simp
                · intro hh; exact List.mem_cons_of_mem _ (iht hh)
            have := tableRun_inside d xs (a + 1) _ (mem _ hg)
            omega
        simp [none, hx]
      · simp [tableGet]
    · have e : k - a = (k - (a + 1)) + 1 := by omega
      unfold tableRun
      split
      · rw [ih (a + 1) k (by omega), e]; simp
      · rw [tableGet, if_neg (by omega), ih (a + 1) k (by omega), e]; simp

/-! ### The order of the numbers -/

theorem tableRun_sorted {α : Type} [DecidableEq α] (d : α) (xs : List α) : ∀ a, tableSorted (tableRun d a xs) := by
  induction xs with
  | nil => intro a; exact List.Pairwise.nil
  | cons x xs ih =>
    intro a
    unfold tableRun
    split
    · exact ih _
    · refine List.Pairwise.cons ?_ (ih _)
      intro e he
      have := tableRun_inside d xs (a + 1) e he
      omega

theorem tableSplice_sorted {α : Type} (t run : List (Nat × α)) (a n : Nat) (h : tableSorted t) (hr : tableSorted run)
    (inside : ∀ e ∈ run, a ≤ e.1 ∧ e.1 < a + n) : tableSorted (tableSplice t a n run) := by
  unfold tableSorted tableSplice
  rw [List.pairwise_append, List.pairwise_append]
  refine ⟨⟨h.filter _, hr, ?_⟩, h.filter _, ?_⟩
  · intro x hx y hy
    have := inside y hy
    simp only [List.mem_filter, decide_eq_true_eq] at hx
    omega
  · intro x hx y hy
    simp only [List.mem_append, List.mem_filter, decide_eq_true_eq] at hx hy
    rcases hx with hx | hx
    · omega
    · have := inside x hx
      omega

theorem tablePut_sorted {α : Type} (t : List (Nat × α)) (i : Nat) (x : α) (h : tableSorted t) : tableSorted (tablePut t i x) :=
  tableSplice_sorted t _ i 1 h (by simp [tableSorted]) (by simp)

theorem tableErase_sorted {α : Type} (t : List (Nat × α)) (i : Nat) (h : tableSorted t) : tableSorted (tableErase t i) :=
  tableSplice_sorted t _ i 1 h (by simp [tableSorted]) (by simp)

/-! ### The DRAM store -/

/-- A byte of the store after a write inside the store: the byte written in its run, the byte before elsewhere. -/
theorem dramRead_dramWrite (mem : List Host.Cell) (a k : Nat) (bytes : List Byte) (h : a + bytes.length ≤ Config.storeBytes) :
    dramRead (dramWrite mem a bytes) k
      = if a ≤ k ∧ k < a + bytes.length then bytes[k - a]?.getD Config.dramPowerOn else dramRead mem k := by
  unfold dramWrite dramRead
  rw [if_pos h, tableGet_splice _ _ _ _ _ fun e he => (tableRun_inside _ _ _ e he).1]
  split
  next hk => exact tableGet_run _ _ _ _ hk.1
  · rfl

/-- The store keeps its canonical form under every write. -/
theorem Memory.wf_dramWrite (mem : List Host.Cell) (a : Nat) (bytes : List Byte) (h : Memory.wf mem) :
    Memory.wf (dramWrite mem a bytes) := by
  unfold dramWrite
  split
  next hb =>
    refine ⟨tableSplice_sorted mem _ a _ h.1 (tableRun_sorted _ _ _) fun e he => (tableRun_inside _ _ _ e he).1, ?_⟩
    intro c hc
    simp only [tableSplice, List.mem_append, List.mem_filter] at hc
    rcases hc with (hc | hc) | hc
    · exact h.2 c hc.1
    · have := tableRun_inside _ _ _ c hc
      exact ⟨by omega, this.2⟩
    · exact h.2 c hc.1
  · exact h

theorem Memory.wf_reset : Memory.wf State.reset.dram := ⟨List.Pairwise.nil, by simp [State.reset]⟩

end Sys2Proof.Machine
end

