-- ==== Sys2Proof/Laws/Bands.lean ====
section
/-!
SUPPORT. What the judging of store pressure, the freeing of a slot and the release of an entry do.
-/

namespace Sys2Proof.Machine

/-! ### Store pressure (R108) -/

/-- The pressure state after a judgment, from the state before it, the reserve and the free count (R108). -/
def pressureAfter (pressure : Bool) (reserve free : Nat) : Bool :=
  if pressure then decide (free ≤ reserve + Config.pressureMargin) else decide (free ≤ reserve)

/-- Everything that the judging of pressure can do: the pressure state follows R108, and PRESSURE is raised at every LIVE port
exactly where it changes. -/
theorem judgePressure_spec (s : State) :
    judgePressure s =
      let after := pressureAfter s.bsc.pressure s.bsc.reserve s.bsc.free.length
      if after = s.bsc.pressure then s else raiseLive .pressure (s.withBsc { s.bsc with pressure := after }) := by
  simp only [judgePressure, pressureAfter]
  cases hp : s.bsc.pressure with
  | true =>
    by_cases h : s.bsc.free.length ≤ s.bsc.reserve + Config.pressureMargin
    · have h' : ¬s.bsc.reserve + Config.pressureMargin < s.bsc.free.length := by omega
      simp [h, h']
    · have h' : s.bsc.reserve + Config.pressureMargin < s.bsc.free.length := by omega
      simp [h, h']
  | false =>
    by_cases h : s.bsc.free.length ≤ s.bsc.reserve
    · simp [h]
    · simp [h]

/-- The band store after a judgment of pressure: the pressure state alone may change. -/
theorem judgePressure_bsc (s : State) :
    (judgePressure s).bsc = { s.bsc with pressure := pressureAfter s.bsc.pressure s.bsc.reserve s.bsc.free.length } := by
  rw [judgePressure_spec]
  dsimp only
  split
  · next h => rw [h]
  · rfl

/-- A port after a judgment of pressure: its pending set and waiting notice frame alone may change. -/
theorem judgePressure_port (s : State) (p : Port) :
    ∃ pending notice, (judgePressure s).port p = { s.port p with pendingSet := pending, notice := notice } := by
  rw [judgePressure_spec]
  dsimp only
  split
  · exact ⟨_, _, rfl⟩
  · exact raiseWhere_kept _ _ _ _

@[simp] theorem judgePressure_band (s : State) (slot : Nat) : (judgePressure s).band slot = s.band slot := by
  show tableGet (judgePressure s).bsc.bands slot = tableGet s.bsc.bands slot
  rw [judgePressure_bsc]

/-! ### Slots (R94, R107) -/

/-- The band store after a slot became FREE (R94, R107). -/
theorem freeSlot_bsc (slot : Nat) (s : State) :
    (freeSlot slot s).bsc = { s.bsc with
      bands := tableErase s.bsc.bands slot
      free := s.bsc.free ++ [slot]
      pressure := pressureAfter s.bsc.pressure s.bsc.reserve (s.bsc.free ++ [slot]).length } := by
  rw [freeSlot, judgePressure_bsc]; rfl

theorem freeSlot_band (slot other : Nat) (s : State) :
    (freeSlot slot s).band other = if other = slot then none else s.band other := by
  show tableGet (freeSlot slot s).bsc.bands other = _
  rw [freeSlot_bsc]
  exact tableGet_erase s.bsc.bands slot other

/-- A release of an entry that names the only holder frees the slot, one of several lowers the holder count, and one that names a
slot that is not HELD does nothing (R107, log 22). -/
theorem releaseSlot_spec (slot : Nat) (s : State) :
    (∀ b r, s.band slot = some b → b.sealing = some r → r.holders ≤ 1 → releaseSlot slot s = freeSlot slot s)
    ∧ (∀ b r, s.band slot = some b → b.sealing = some r → 2 ≤ r.holders →
        releaseSlot slot s = putBand slot { b with sealing := some { r with holders := r.holders - 1 } } s)
    ∧ ((∀ b r, s.band slot = some b → b.sealing ≠ some r) → releaseSlot slot s = s) := by
  refine ⟨fun b r hb hr h => ?_, fun b r hb hr h => ?_, fun h => ?_⟩
  · simp [releaseSlot, hb, hr, h]
  · have h' : ¬r.holders ≤ 1 := by omega
    simp [releaseSlot, hb, hr, h']
  · unfold releaseSlot
    cases hb : s.band slot with
    | none => rfl
    | some b =>
      cases hr : b.sealing with
      | none => simp [hr]
      | some r => exact absurd hr (h b r hb)

end Sys2Proof.Machine
end

