-- ==== Sys2Proof/Laws/Frames.lean ====
section
/-!
SUPPORT. Which parts of the state each shared operation may change.
-/

namespace Sys2Proof.Machine

theorem State.Agree.refl (A : List Part) (s : State) : State.Agree A s s :=
  ⟨fun _ => rfl, fun _ => rfl, fun _ => rfl, fun _ => rfl, fun _ => rfl, fun _ => rfl, fun _ => rfl, fun _ => rfl, fun _ => rfl,
   fun _ => rfl, fun _ => rfl, fun _ => rfl, fun _ => rfl⟩

theorem State.Agree.trans {A : List Part} {s t u : State} (h : State.Agree A s t) (g : State.Agree A t u) : State.Agree A s u where
  pending := fun n => (g.pending n).trans (h.pending n)
  now := fun n => (g.now n).trans (h.now n)
  mu := fun n => (g.mu n).trans (h.mu n)
  ru := fun n => (g.ru n).trans (h.ru n)
  lanes := fun n => (g.lanes n).trans (h.lanes n)
  cb := fun n => (g.cb n).trans (h.cb n)
  le := fun n => (g.le n).trans (h.le n)
  bsc := fun n => (g.bsc n).trans (h.bsc n)
  dram := fun n => (g.dram n).trans (h.dram n)
  windows := fun n => (g.windows n).trans (h.windows n)
  ports := fun n => (g.ports n).trans (h.ports n)
  shared := fun n => (g.shared n).trans (h.shared n)
  mku := fun n => (g.mku n).trans (h.mku n)

theorem State.Agree.mono {A B : List Part} {s t : State} (h : State.Agree A s t) (sub : ∀ x ∈ A, x ∈ B) : State.Agree B s t where
  pending := fun n => h.pending fun m => n (sub _ m)
  now := fun n => h.now fun m => n (sub _ m)
  mu := fun n => h.mu fun m => n (sub _ m)
  ru := fun n => h.ru fun m => n (sub _ m)
  lanes := fun n => h.lanes fun m => n (sub _ m)
  cb := fun n => h.cb fun m => n (sub _ m)
  le := fun n => h.le fun m => n (sub _ m)
  bsc := fun n => h.bsc fun m => n (sub _ m)
  dram := fun n => h.dram fun m => n (sub _ m)
  windows := fun n => h.windows fun m => n (sub _ m)
  ports := fun n => h.ports fun m => n (sub _ m)
  shared := fun n => h.shared fun m => n (sub _ m)
  mku := fun n => h.mku fun m => n (sub _ m)

theorem agree_foldl {α : Type} {A : List Part} {f : State → α → State} (h : ∀ s x, State.Agree A s (f s x)) (l : List α) :
    ∀ s, State.Agree A s (l.foldl f s) := by
  induction l with
  | nil => exact fun s => .refl A s
  | cons x l ih => exact fun s => (h s x).trans (ih (f s x))

theorem agree_withPending {A : List Part} (s : State) (x : List Instr) (m : Part.pending ∈ A) : State.Agree A s (s.withPending x) where
  pending := fun n => absurd m n
  now := fun _ => rfl
  mu := fun _ => rfl
  ru := fun _ => rfl
  lanes := fun _ => rfl
  cb := fun _ => rfl
  le := fun _ => rfl
  bsc := fun _ => rfl
  dram := fun _ => rfl
  windows := fun _ => rfl
  ports := fun _ => rfl
  shared := fun _ => rfl
  mku := fun _ => rfl
theorem agree_withNow {A : List Part} (s : State) (x : Nat) (m : Part.now ∈ A) : State.Agree A s (s.withNow x) where
  pending := fun _ => rfl
  now := fun n => absurd m n
  mu := fun _ => rfl
  ru := fun _ => rfl
  lanes := fun _ => rfl
  cb := fun _ => rfl
  le := fun _ => rfl
  bsc := fun _ => rfl
  dram := fun _ => rfl
  windows := fun _ => rfl
  ports := fun _ => rfl
  shared := fun _ => rfl
  mku := fun _ => rfl
theorem agree_withMu {A : List Part} (s : State) (x : MotionUnit) (m : Part.mu ∈ A) : State.Agree A s (s.withMu x) where
  pending := fun _ => rfl
  now := fun _ => rfl
  mu := fun n => absurd m n
  ru := fun _ => rfl
  lanes := fun _ => rfl
  cb := fun _ => rfl
  le := fun _ => rfl
  bsc := fun _ => rfl
  dram := fun _ => rfl
  windows := fun _ => rfl
  ports := fun _ => rfl
  shared := fun _ => rfl
  mku := fun _ => rfl
theorem agree_withRu {A : List Part} (s : State) (x : RepeatUnit) (m : Part.ru ∈ A) : State.Agree A s (s.withRu x) where
  pending := fun _ => rfl
  now := fun _ => rfl
  mu := fun _ => rfl
  ru := fun n => absurd m n
  lanes := fun _ => rfl
  cb := fun _ => rfl
  le := fun _ => rfl
  bsc := fun _ => rfl
  dram := fun _ => rfl
  windows := fun _ => rfl
  ports := fun _ => rfl
  shared := fun _ => rfl
  mku := fun _ => rfl
theorem agree_withLanes {A : List Part} (s : State) (x : PerLane LaneFrontEnd) (m : Part.lanes ∈ A) : State.Agree A s (s.withLanes x) where
  pending := fun _ => rfl
  now := fun _ => rfl
  mu := fun _ => rfl
  ru := fun _ => rfl
  lanes := fun n => absurd m n
  cb := fun _ => rfl
  le := fun _ => rfl
  bsc := fun _ => rfl
  dram := fun _ => rfl
  windows := fun _ => rfl
  ports := fun _ => rfl
  shared := fun _ => rfl
  mku := fun _ => rfl
theorem agree_withCb {A : List Part} (s : State) (x : CorrectionBlock) (m : Part.cb ∈ A) : State.Agree A s (s.withCb x) where
  pending := fun _ => rfl
  now := fun _ => rfl
  mu := fun _ => rfl
  ru := fun _ => rfl
  lanes := fun _ => rfl
  cb := fun n => absurd m n
  le := fun _ => rfl
  bsc := fun _ => rfl
  dram := fun _ => rfl
  windows := fun _ => rfl
  ports := fun _ => rfl
  shared := fun _ => rfl
  mku := fun _ => rfl
theorem agree_withLe {A : List Part} (s : State) (x : LevelingEngine) (m : Part.le ∈ A) : State.Agree A s (s.withLe x) where
  pending := fun _ => rfl
  now := fun _ => rfl
  mu := fun _ => rfl
  ru := fun _ => rfl
  lanes := fun _ => rfl
  cb := fun _ => rfl
  le := fun n => absurd m n
  bsc := fun _ => rfl
  dram := fun _ => rfl
  windows := fun _ => rfl
  ports := fun _ => rfl
  shared := fun _ => rfl
  mku := fun _ => rfl
theorem agree_withBsc {A : List Part} (s : State) (x : BandStore) (m : Part.bsc ∈ A) : State.Agree A s (s.withBsc x) where
  pending := fun _ => rfl
  now := fun _ => rfl
  mu := fun _ => rfl
  ru := fun _ => rfl
  lanes := fun _ => rfl
  cb := fun _ => rfl
  le := fun _ => rfl
  bsc := fun n => absurd m n
  dram := fun _ => rfl
  windows := fun _ => rfl
  ports := fun _ => rfl
  shared := fun _ => rfl
  mku := fun _ => rfl
theorem agree_withDram {A : List Part} (s : State) (x : List Host.Cell) (m : Part.dram ∈ A) : State.Agree A s (s.withDram x) where
  pending := fun _ => rfl
  now := fun _ => rfl
  mu := fun _ => rfl
  ru := fun _ => rfl
  lanes := fun _ => rfl
  cb := fun _ => rfl
  le := fun _ => rfl
  bsc := fun _ => rfl
  dram := fun n => absurd m n
  windows := fun _ => rfl
  ports := fun _ => rfl
  shared := fun _ => rfl
  mku := fun _ => rfl
theorem agree_withWindows {A : List Part} (s : State) (x : List (Nat × Window)) (m : Part.windows ∈ A) : State.Agree A s (s.withWindows x) where
  pending := fun _ => rfl
  now := fun _ => rfl
  mu := fun _ => rfl
  ru := fun _ => rfl
  lanes := fun _ => rfl
  cb := fun _ => rfl
  le := fun _ => rfl
  bsc := fun _ => rfl
  dram := fun _ => rfl
  windows := fun n => absurd m n
  ports := fun _ => rfl
  shared := fun _ => rfl
  mku := fun _ => rfl
theorem agree_withPorts {A : List Part} (s : State) (x : PerPort ConsumerPort) (m : Part.ports ∈ A) : State.Agree A s (s.withPorts x) where
  pending := fun _ => rfl
  now := fun _ => rfl
  mu := fun _ => rfl
  ru := fun _ => rfl
  lanes := fun _ => rfl
  cb := fun _ => rfl
  le := fun _ => rfl
  bsc := fun _ => rfl
  dram := fun _ => rfl
  windows := fun _ => rfl
  ports := fun n => absurd m n
  shared := fun _ => rfl
  mku := fun _ => rfl
theorem agree_withShared {A : List Part} (s : State) (x : SharedRecord) (m : Part.shared ∈ A) : State.Agree A s (s.withShared x) where
  pending := fun _ => rfl
  now := fun _ => rfl
  mu := fun _ => rfl
  ru := fun _ => rfl
  lanes := fun _ => rfl
  cb := fun _ => rfl
  le := fun _ => rfl
  bsc := fun _ => rfl
  dram := fun _ => rfl
  windows := fun _ => rfl
  ports := fun _ => rfl
  shared := fun n => absurd m n
  mku := fun _ => rfl
theorem agree_withMku {A : List Part} (s : State) (x : MarkerUnit) (m : Part.mku ∈ A) : State.Agree A s (s.withMku x) where
  pending := fun _ => rfl
  now := fun _ => rfl
  mu := fun _ => rfl
  ru := fun _ => rfl
  lanes := fun _ => rfl
  cb := fun _ => rfl
  le := fun _ => rfl
  bsc := fun _ => rfl
  dram := fun _ => rfl
  windows := fun _ => rfl
  ports := fun _ => rfl
  shared := fun _ => rfl
  mku := fun n => absurd m n

theorem agree_setPort {A : List Part} (s : State) (p : Port) (c : ConsumerPort) (m : Part.ports ∈ A) : State.Agree A s (s.setPort p c) :=
  agree_withPorts s _ m

theorem agree_setLane {A : List Part} (s : State) (k : Lane) (l : LaneFrontEnd) (m : Part.lanes ∈ A) : State.Agree A s (s.setLane k l) :=
  agree_withLanes s _ m

theorem agree_ite {A : List Part} {c : Prop} [Decidable c] {s t u : State} (h : c → State.Agree A s t) (g : ¬c → State.Agree A s u) :
    State.Agree A s (if c then t else u) := by
  by_cases hc : c
  · rw [if_pos hc]; exact h hc
  · rw [if_neg hc]; exact g hc

/-! ### Notices, the numbering, the store -/

theorem raiseWhere_agree {A : List Part} (sel : Port → ConsumerPort → Bool) (k : NoticeKind) (s : State) (m : Part.ports ∈ A) :
    State.Agree A s (raiseWhere sel k s) := agree_withPorts s _ m

theorem goLock_agree {A : List Part} (l : LockState) (s : State) (m : Part.ru ∈ A) (n : Part.ports ∈ A) : State.Agree A s (goLock l s) :=
  agree_ite (fun _ => .refl _ s) fun _ => (agree_withRu s _ m).trans (raiseWhere_agree _ _ _ n)

theorem applySettings_agree {A : List Part} (s : State) (m : Part.ru ∈ A) (n : Part.ports ∈ A) : State.Agree A s (applySettings s) := by
  unfold applySettings
  split
  · exact .refl _ s
  · dsimp only
    split
    · exact ((agree_withRu s _ m).trans (agree_withRu _ _ m)).trans (goLock_agree _ _ m n)
    · exact (agree_withRu s _ m).trans (goLock_agree _ _ m n)
    · exact agree_withRu s _ m

theorem openRepeat_agree {A : List Part} (w : Line) (cause : Option RestartKind) (s : State) (m : Part.ru ∈ A) (n : Part.ports ∈ A) :
    State.Agree A s (openRepeat w cause s) :=
  (((agree_withRu s _ m).trans (applySettings_agree _ m n)).trans (agree_withRu _ _ m)).trans (raiseWhere_agree _ _ _ n)

theorem phaseAdvance_agree {A : List Part} (w : Line) (s : State) (m : Part.ru ∈ A) (n : Part.ports ∈ A) :
    State.Agree A s (phaseAdvance w s) :=
  agree_ite (fun _ => agree_withRu s _ m) fun _ => (agree_withRu s _ m).trans (openRepeat_agree _ _ _ m n)

theorem restartStep_agree {A : List Part} (w : Line) (s : State) (m : Part.ru ∈ A) (n : Part.ports ∈ A) :
    State.Agree A s (restartStep w s) := by
  unfold restartStep
  split
  · exact .refl _ s
  · dsimp only
    refine .trans ?_ (agree_withRu _ _ m)
    exact agree_ite (fun _ => agree_withRu s _ m) fun _ => openRepeat_agree _ _ _ m n

theorem windowEnd_agree {A : List Part} (w : Line) (s : State) (m : Part.ru ∈ A) (n : Part.ports ∈ A) : State.Agree A s (windowEnd w s) := by
  unfold windowEnd
  refine agree_ite (fun _ => ?_) fun _ => .refl _ s
  exact agree_ite (fun _ => (agree_withRu s _ m).trans (goLock_agree _ _ m n)) fun _ => (agree_withRu s _ m).trans (goLock_agree _ _ m n)

theorem chainExpiry_agree {A : List Part} (w : Line) (s : State) (m : Part.ru ∈ A) : State.Agree A s (chainExpiry w s) := by
  unfold chainExpiry
  split
  · exact agree_ite (fun _ => agree_withRu s _ m) fun _ => .refl _ s
  · exact .refl _ s

theorem repeatDueLine_agree {A : List Part} (w : Line) (s : State) (m : Part.ru ∈ A) (n : Part.ports ∈ A) :
    State.Agree A s (repeatDueLine w s) :=
  (((phaseAdvance_agree w s m n).trans (restartStep_agree w _ m n)).trans (windowEnd_agree w _ m n)).trans (chainExpiry_agree w _ m)

theorem markTransition_agree {A : List Part} (e : MarkDirection) (s : State) (m : Part.ru ∈ A) (n : Part.ports ∈ A) :
    State.Agree A s (markTransition e s) := by
  unfold markTransition
  refine agree_ite (fun _ => ?_) fun _ => .refl _ s
  have judge : State.Agree A s (markJudge s) :=
    agree_ite (fun _ => (agree_withRu s _ m).trans (goLock_agree _ _ m n)) fun _ => agree_withRu s _ m
  split
  · exact .refl _ s
  · exact .trans (agree_withRu s _ m)
      (agree_ite (fun _ => (agree_withRu _ _ m).trans (goLock_agree _ _ m n)) fun _ => .refl _ _)
  · exact judge
  · exact judge

theorem overrunIndication_agree {A : List Part} (s : State) (m : Part.ru ∈ A) (n : Part.ports ∈ A) :
    State.Agree A s (overrunIndication s) := by
  unfold overrunIndication
  split
  · exact .refl _ s
  all_goals exact (agree_withRu s _ m).trans (goLock_agree _ _ m n)

theorem judgePressure_agree {A : List Part} (s : State) (m : Part.bsc ∈ A) (n : Part.ports ∈ A) : State.Agree A s (judgePressure s) :=
  agree_ite (fun _ => agree_ite (fun _ => (agree_withBsc s _ m).trans (raiseWhere_agree _ _ _ n)) fun _ => .refl _ s)
    fun _ => agree_ite (fun _ => (agree_withBsc s _ m).trans (raiseWhere_agree _ _ _ n)) fun _ => .refl _ s

theorem putBand_agree {A : List Part} (slot : Nat) (b : Band) (s : State) (m : Part.bsc ∈ A) : State.Agree A s (putBand slot b s) :=
  agree_withBsc s _ m

theorem clearFilling_agree {A : List Part} (k : Lane) (s : State) (m : Part.bsc ∈ A) : State.Agree A s (clearFilling k s) :=
  agree_withBsc s _ m

theorem freeSlot_agree {A : List Part} (slot : Nat) (s : State) (m : Part.bsc ∈ A) (n : Part.ports ∈ A) :
    State.Agree A s (freeSlot slot s) := (agree_withBsc s _ m).trans (judgePressure_agree _ m n)

theorem putWindow_agree {A : List Part} (id : Nat) (w : Window) (s : State) (m : Part.windows ∈ A) : State.Agree A s (putWindow id w s) :=
  agree_withWindows s _ m

theorem eraseWindow_agree {A : List Part} (id : Nat) (s : State) (m : Part.windows ∈ A) : State.Agree A s (eraseWindow id s) :=
  agree_withWindows s _ m

theorem releaseSlot_agree {A : List Part} (slot : Nat) (s : State) (m : Part.bsc ∈ A) (n : Part.ports ∈ A) :
    State.Agree A s (releaseSlot slot s) := by
  unfold releaseSlot
  split
  · exact .refl _ s
  · split
    · exact .refl _ s
    · exact agree_ite (fun _ => freeSlot_agree _ _ m n) fun _ => putBand_agree _ _ _ m

theorem releaseEntries_agree {A : List Part} (es : List Entry) (s : State) (m : Part.bsc ∈ A) (n : Part.ports ∈ A) :
    State.Agree A s (releaseEntries es s) := agree_foldl (f := fun s e => releaseSlot e.slot s) (fun s e => releaseSlot_agree e.slot s m n) es s

/-! ### Matching and closure -/

theorem matchBand_agree {A : List Part} (slot : Nat) (b : Band) (s : State) (m : Part.windows ∈ A) (n : Part.ports ∈ A) :
    State.Agree A s (matchBand slot b s).1 := by
  suffices h : ∀ (ids : List Nat) (acc : State × Nat), State.Agree A acc.1 (ids.foldl (matchWindow slot b) acc).1 from h _ (s, 0)
  intro ids
  induction ids with
  | nil => exact fun acc => .refl A _
  | cons id ids ih =>
    intro acc
    refine .trans ?_ (ih _)
    unfold matchWindow
    split
    · exact .refl A _
    · split
      · split
        · exact agree_setPort _ _ _ n
        · exact (agree_withWindows _ _ m).trans (agree_setPort _ _ _ n)
      · exact .refl A _

theorem withdraw_agree {A : List Part} (id : Nat) (cls : DeliveryClass) (s : State) (p : Port) (m : Part.bsc ∈ A) (n : Part.ports ∈ A) :
    State.Agree A s (withdraw id cls s p) := (agree_setPort s _ _ n).trans (releaseEntries_agree _ _ m n)

theorem closeWindow_agree (id : Nat) (s : State) : State.Agree deliveryParts s (closeWindow id s) := by
  unfold closeWindow
  split
  · exact .refl _ s
  next w _ =>
    refine .trans (agree_foldl (f := withdraw id w.cls) (fun s p => withdraw_agree _ _ s p (by decide) (by decide)) allPorts s) ?_
    dsimp only
    split
    · exact eraseWindow_agree _ _ (by decide)
    · exact putWindow_agree _ _ _ (by decide)

theorem closingStripEnd_agree {A : List Part} (id : Nat) (s : State) (m : Part.windows ∈ A) : State.Agree A s (closingStripEnd id s) := by
  unfold closingStripEnd
  split
  · exact .refl _ s
  · split
    · exact .refl _ s
    · exact agree_ite (fun _ => agree_withWindows _ _ m) fun _ => agree_withWindows _ _ m

theorem sealBand_agree (k : Lane) (stop : Bool) (s : State) : State.Agree deliveryParts s (sealBand k stop s) := by
  unfold sealBand
  split
  · exact .refl _ s
  · split
    · exact clearFilling_agree _ _ (by decide)
    · dsimp only
      have matched : ∀ slot b, State.Agree deliveryParts s (matchBand slot b
          (clearFilling k (s.withBsc { s.bsc with sealSequence := s.bsc.sealSequence + 1 }))).1 := fun slot b =>
        ((agree_withBsc s _ (by decide)).trans (clearFilling_agree _ _ (by decide))).trans
          (matchBand_agree _ _ _ (by decide) (by decide))
      exact agree_ite (fun _ => (matched _ _).trans (freeSlot_agree _ _ (by decide) (by decide)))
        fun _ => (matched _ _).trans (putBand_agree _ _ _ (by decide))

theorem stopSeal_agree (s : State) : State.Agree deliveryParts s (stopSeal s) :=
  agree_foldl (f := fun s k => sealBand k true s) (fun s k => sealBand_agree k true s) allLanes s

/-- The parts a placement reaches. -/
def placeParts : List Part := [.bsc, .dram, .windows, .ports]

theorem extendBand_agree (slot : Nat) (b : Band) (x : Placement) (s : State) : State.Agree placeParts s (extendBand slot b x s) := by
  unfold extendBand
  dsimp only
  have write : State.Agree placeParts s (match x.samples with
      | none => putBand slot { b with lastIrl := x.irl } s
      | some samples =>
        (putBand slot { b with lastIrl := x.irl, presence := b.presence ++ [(x.irl, (samples.take b.width).length)] } s).withDram
          (dramWrite (putBand slot { b with lastIrl := x.irl, presence := b.presence ++ [(x.irl, (samples.take b.width).length)] } s).dram
            (sampleAddress slot b.block x.irl) (samples.take b.width))) := by
    split
    · exact agree_withBsc _ _ (by decide)
    · exact (agree_withBsc _ _ (by decide)).trans (agree_withDram _ _ (by decide))
  exact agree_ite (fun _ => write.trans ((sealBand_agree _ _ _).mono (by decide))) fun _ => write

theorem openBand_agree (x : Placement) (s : State) : State.Agree placeParts s (openBand x s) := by
  unfold openBand
  split
  · exact agree_withBsc _ _ (by decide)
  · exact ((agree_withBsc _ _ (by decide)).trans (judgePressure_agree _ (by decide) (by decide))).trans (extendBand_agree _ _ _ _)

theorem place_agree (x : Placement) (s : State) : State.Agree placeParts s (place x s) := by
  have next : State.Agree placeParts s (openBand x (sealBand x.lane false s)) :=
    ((sealBand_agree _ _ s).mono (by decide)).trans (openBand_agree x _)
  unfold place
  split
  · exact openBand_agree x s
  · split
    · exact next
    · exact agree_ite (fun _ => extendBand_agree _ _ x s) fun _ => next

/-! ### Commits and the search -/

theorem completeCommit_agree {A : List Part} (k : Lane) (s : State) (m : Part.cb ∈ A) (n : Part.ports ∈ A) :
    State.Agree A s (completeCommit k s) := by
  unfold completeCommit
  split
  · exact .refl _ s
  · exact agree_ite (fun _ => (agree_withCb s _ m).trans (raiseWhere_agree _ _ _ n)) fun _ => .refl _ s

/-- The parts the Leveling Engine reaches. -/
def levelParts : List Part := [.lanes, .le, .ports]

theorem endSearch_agree (x : Search) (cause : EndCause) (w : Line) (s : State) : State.Agree levelParts s (endSearch x cause w s) := by
  unfold endSearch
  dsimp only
  refine .trans (t := if cause ≠ .abort ∧ x.request.apply = true ∧ isFound ((x.results cause).get x.request.reference) = true
    then stageOffsets (x.results cause) s else s) ?_ ?_
  · exact agree_ite (fun _ => agree_withLanes _ _ (by decide)) fun _ => .refl _ s
  · exact (agree_withLe _ _ (by decide)).trans (raiseWhere_agree _ _ _ (by decide))

theorem updateRecord_agree (x : Search) (k : Lane) (r : SearchRecord) (s : State) : State.Agree levelParts s (updateRecord x k r s) :=
  agree_ite (fun _ => agree_withLe _ _ (by decide)) fun _ => endSearch_agree _ _ _ s

theorem levelLine_agree (k : Lane) (stamp : Line) (offset : Nat) (samples : Option (List Byte)) (s : State) :
    State.Agree levelParts s (levelLine k stamp offset samples s) := by
  unfold levelLine
  split
  · exact .refl _ s
  · exact .refl _ s
  · split
    · exact .refl _ s
    · exact agree_ite (fun _ => agree_ite (fun _ => updateRecord_agree _ _ _ s) fun _ => agree_withLe _ _ (by decide)) fun _ => .refl _ s

theorem levelLeavesRun_agree (k : Lane) (s : State) : State.Agree levelParts s (levelLeavesRun k s) := by
  unfold levelLeavesRun
  split
  · exact .refl _ s
  · exact .refl _ s
  · split
    · exact .refl _ s
    · exact agree_ite (fun _ => updateRecord_agree _ _ _ s) fun _ => .refl _ s

theorem levelSpan_agree (w : Line) (s : State) : State.Agree levelParts s (levelSpan w s) := by
  unfold levelSpan
  split
  · exact .refl _ s
  · exact .refl _ s
  · exact agree_ite (fun _ => endSearch_agree _ _ _ s) fun _ => .refl _ s

/-! ### Lanes -/

theorem updateLane_agree {A : List Part} (k : Lane) (f : LaneFrontEnd → LaneFrontEnd) (s : State) (m : Part.lanes ∈ A) :
    State.Agree A s (updateLane k f s) := agree_setLane s k _ m

theorem countLane_agree {A : List Part} (k : Lane) (f : LaneCounters → LaneCounters) (s : State) (m : Part.lanes ∈ A) :
    State.Agree A s (countLane k f s) := updateLane_agree k _ s m

theorem runLine_agree (k : Lane) (w : Line) (offset : Nat) (b : LineBody) (s : State) :
    State.Agree lineParts s (runLine k w offset b s) := by
  unfold runLine
  dsimp only
  refine agree_ite (fun _ => countLane_agree _ _ _ (by decide)) fun _ => ?_
  split
  · exact countLane_agree _ _ _ (by decide)
  · refine .trans ?_ ((levelLine_agree _ _ _ _ _).mono (by decide))
    refine .trans ?_ ((place_agree _ _).mono (by decide))
    exact updateLane_agree k _ s (by decide)

theorem lineEvent_agree (k : Lane) (w : Line) (offset : Nat) (mode : ActiveMode) (b : LineBody) (s : State) :
    State.Agree lineParts s (lineEvent k w offset mode b s) := by
  unfold lineEvent
  dsimp only
  have begun : State.Agree lineParts s (updateLane k applyImmediate (completeCommit k s)) :=
    (completeCommit_agree k s (by decide) (by decide)).trans (updateLane_agree k _ _ (by decide))
  split
  · exact begun.trans (runLine_agree _ _ _ _ _)
  · exact begun.trans (updateLane_agree _ _ _ (by decide))

theorem removeOldest_agree (k : Lane) (b : LineBody) (s : State) : State.Agree lineParts s (removeOldest k b s) := by
  unfold removeOldest
  split
  · exact .refl _ s
  · dsimp only
    have event := fun (e : FifoEntry) (f : LaneFrontEnd → LaneFrontEnd) =>
      (updateLane_agree k f s (by decide)).trans (lineEvent_agree k e.wln e.offset e.mode b _)
    exact agree_ite (fun _ => (event _ _).trans ((sealBand_agree _ _ _).mono (by decide))) fun _ => event _ _

theorem loseOldest_agree (k : Lane) (s : State) : State.Agree lineParts s (loseOldest k s) :=
  (removeOldest_agree k _ s).trans (countLane_agree _ _ _ (by decide))

theorem flushCounted_agree (k : Lane) (n : Nat) : ∀ s, State.Agree lineParts s (flushCounted k n s) := by
  induction n with
  | zero => exact fun s => .refl _ s
  | succ n ih => exact fun s => (loseOldest_agree k s).trans (ih _)

theorem flushMissing_agree (k : Lane) (n : Nat) : ∀ s, State.Agree lineParts s (flushMissing k n s) := by
  induction n with
  | zero => exact fun s => .refl _ s
  | succ n ih => exact fun s => (removeOldest_agree k _ s).trans (ih _)

/-- The parts a change of a lane's state reaches. -/
def stateParts : List Part := [.lanes, .cb, .le, .ports]

theorem changeState_agree (k : Lane) (new : LaneState) (s : State) : State.Agree stateParts s (changeState k new s) := by
  unfold changeState
  dsimp only
  have first : State.Agree stateParts s (if (s.lane k).state.isFault ≠ new.isFault
      then raiseUp .lane (updateLane k (fun l => { l with state := new }) s) else updateLane k (fun l => { l with state := new }) s) :=
    agree_ite (fun _ => (updateLane_agree k _ s (by decide)).trans (raiseWhere_agree _ _ _ (by decide)))
      fun _ => updateLane_agree k _ s (by decide)
  have second := fun (c : Prop) [Decidable c] =>
    agree_ite (c := c) (fun _ => first.trans (completeCommit_agree k _ (by decide) (by decide))) fun _ => first
  exact agree_ite (fun _ => (second _).trans ((levelLeavesRun_agree k _).mono (by decide))) fun _ => second _

theorem modeActions_agree (k : Lane) (old new : Option ActiveMode) (s : State) : State.Agree lineParts s (modeActions k old new s) := by
  have entry : ∀ (c : Prop) [Decidable c] (f : LaneFrontEnd → LaneFrontEnd) (s : State),
      State.Agree lineParts s (if c then updateLane k f s else s) :=
    fun c _ f s => agree_ite (fun _ => updateLane_agree k f s (by decide)) fun _ => .refl _ s
  unfold modeActions
  dsimp only
  refine agree_ite (fun _ => agree_ite (fun _ => ?_) fun _ => ?_) fun _ => (entry _ _ s).trans (entry _ _ _)
  · refine .trans ?_ ((sealBand_agree _ _ _).mono (by decide))
    refine .trans ?_ (updateLane_agree k _ _ (by decide))
    exact (entry _ _ s).trans (entry _ _ _)
  · refine .trans ?_ (updateLane_agree k _ _ (by decide))
    exact (entry _ _ s).trans (entry _ _ _)

theorem sourceActions_agree (k : Lane) (new : Source) (s : State) : State.Agree lineParts s (sourceActions k new s) :=
  agree_ite (fun _ => .refl _ s) fun _ =>
    ((flushCounted_agree k _ s).trans (updateLane_agree k _ _ (by decide))).trans ((sealBand_agree _ _ _).mono (by decide))

theorem applyRepeatStart_agree (k : Lane) (s : State) : State.Agree lineParts s (applyRepeatStart k s) := by
  unfold applyRepeatStart
  dsimp only
  refine .trans (updateLane_agree k applyOffset s (by decide)) ?_
  split
  · exact .refl _ _
  · unfold applyModeItem
    dsimp only
    refine .trans ?_ (sourceActions_agree _ _ _)
    refine .trans ?_ (modeActions_agree _ _ _ _)
    refine .trans ?_ ((changeState_agree k _ _).mono (by decide))
    exact updateLane_agree k _ _ (by decide)

theorem handleTrigger_agree (k : Lane) (w : Line) (s : State) : State.Agree lineParts s (handleTrigger k w s) := by
  unfold handleTrigger
  dsimp only
  split
  · exact .refl _ s
  · exact lineEvent_agree _ _ _ _ _ s
  · split
    · exact lineEvent_agree _ _ _ _ _ s
    · exact lineEvent_agree _ _ _ _ _ s
    · exact .trans (agree_ite (fun _ => loseOldest_agree k s) fun _ => .refl _ s) (updateLane_agree k _ _ (by decide))

theorem triggerLanes_agree (w : Line) (mark : Bool) (s : State) : State.Agree lineParts s (triggerLanes w mark s) :=
  agree_foldl (fun s k => .trans (agree_ite (fun _ => applyRepeatStart_agree k s) fun _ => .refl _ s) (handleTrigger_agree k w _)) allLanes s

theorem arriveLine_agree (k : Lane) (frame : LineFrame) (s : State) : State.Agree lineParts s (arriveLine k frame s) := by
  unfold arriveLine
  refine agree_ite (fun _ => ?_) fun _ => .refl _ s
  split
  · exact .refl _ s
  · exact agree_ite (fun _ => countLane_agree _ _ _ (by decide)) fun _ => removeOldest_agree _ _ _
  · exact (countLane_agree _ _ _ (by decide)).trans (removeOldest_agree _ _ _)

theorem faultLane_agree (k : Lane) (s : State) : State.Agree stateParts s (faultLane k s) := by
  unfold faultLane
  split
  · exact changeState_agree _ _ _
  · exact .refl _ _
  · exact .refl _ _

theorem loseLaneLink_agree (k : Lane) (s : State) : State.Agree lineParts s (loseLaneLink k s) := by
  unfold loseLaneLink
  refine agree_ite (fun _ => ?_) fun _ => .refl _ s
  exact ((updateLane_agree k _ s (by decide)).trans ((faultLane_agree k _).mono (by decide))).trans (flushMissing_agree k _ _)

theorem changeState_from_fault_agree (k : Lane) (m : ActiveMode) (s : State) (h : (s.lane k).state = .fault m) :
    State.Agree [.lanes, .ports] s (changeState k (.active m) s) := by
  have e : changeState k (.active m) s = raiseUp .lane (updateLane k (fun l => { l with state := .active m }) s) := by
    simp [changeState, h, LaneState.isFault]
  rw [e]
  exact (updateLane_agree k _ s (by decide)).trans (raiseWhere_agree _ _ _ (by decide))

theorem returnLaneLink_agree (k : Lane) (s : State) : State.Agree [.lanes, .ports] s (returnLaneLink k s) := by
  unfold returnLaneLink
  dsimp only
  refine .trans (updateLane_agree k (fun l => { l with linkUp := true }) s (by decide)) ?_
  split
  next m h => exact changeState_from_fault_agree k _ _ h
  · exact .refl _ _
  · exact .refl _ _

/-! ### Markers and due lines -/

theorem markerDueLine_agree {A : List Part} (w : Line) (s : State) (m : Part.mku ∈ A) (n : Part.ports ∈ A) :
    State.Agree A s (markerDueLine w s) :=
  (agree_withMku s _ m).trans (agree_foldl (fun s _ => (agree_withMku s _ m).trans (raiseWhere_agree _ _ _ n)) _ _)

/-- The parts a due line reaches. -/
def dueParts : List Part := [.mu, .ru, .lanes, .cb, .le, .bsc, .dram, .windows, .ports, .mku]

theorem dueLine_agree (s : State) : State.Agree dueParts s (dueLine s) := by
  have counted : State.Agree dueParts s (countDueLine s) := by
    unfold countDueLine
    dsimp only
    split
    · exact (agree_withMu s _ (by decide)).trans (raiseWhere_agree _ _ _ (by decide))
    · exact agree_withMu s _ (by decide)
  have gate : ∀ (w : Line) (s : State), State.Agree dueParts s (gateDueLine w s) := by
    intro w s
    unfold gateDueLine
    split
    · exact (agree_withMu s _ (by decide)).trans ((triggerLanes_agree _ _ _).mono (by decide))
    · exact (agree_withMu s _ (by decide)).trans (raiseWhere_agree _ _ _ (by decide))
  have mark : ∀ (w : Line) (s : State), State.Agree dueParts s (markRepeatStart w s) :=
    fun w s => agree_ite (fun _ => agree_withMu s _ (by decide)) fun _ => .refl _ s
  unfold dueLine
  dsimp only
  refine .trans counted (.trans ?_ (gate _ _))
  exact (((repeatDueLine_agree _ _ (by decide) (by decide)).trans (mark _ _)).trans
    (markerDueLine_agree _ _ (by decide) (by decide))).trans ((levelSpan_agree _ _).mono (by decide))

theorem encoderChange_agree (inputs : EncInputs) (s : State) : State.Agree dueParts s (encoderChange inputs s) := by
  have forward : ∀ s, State.Agree dueParts s (forwardCount s) := fun s =>
    agree_ite (fun _ => .trans (agree_withMu s _ (by decide)) (agree_ite (fun _ => agree_withMu _ _ (by decide)) fun _ => dueLine_agree _))
      fun _ => agree_withMu s _ (by decide)
  have reverse : ∀ s, State.Agree dueParts s (reverseCount s) := fun s =>
    agree_ite (fun _ => agree_withMu s _ (by decide)) fun _ => .trans (agree_withMu s _ (by decide))
      (agree_ite (fun _ => agree_withMu _ _ (by decide)) fun _ =>
        ((agree_withMu _ _ (by decide)).trans (raiseWhere_agree _ _ _ (by decide))).trans
          (overrunIndication_agree _ (by decide) (by decide)))
  unfold encoderChange
  dsimp only
  have moved : State.Agree dueParts s (s.withMu { s.mu with reference := inputs }) := agree_withMu s _ (by decide)
  refine agree_ite (fun _ => moved) fun _ => agree_ite (fun _ => ?_)
    fun _ => agree_ite (fun _ => moved.trans (forward _)) fun _ => moved.trans (reverse _)
  exact moved.trans ((agree_withMu _ _ (by decide)).trans (raiseWhere_agree _ _ _ (by decide)))

/-! ### Links and failures -/

/-- The parts the arbiters and the stall timers reach. -/
def linkParts : List Part := [.windows, .ports]

theorem arbitrate_agree (s : State) (p : Port) : State.Agree linkParts s (arbitrate s p) := by
  have begun : ∀ e, State.Agree linkParts s (beginStrip p e s) := by
    intro e
    unfold beginStrip
    split
    · split
      · exact .refl _ s
      · exact (agree_withWindows _ _ (by decide)).trans (agree_setPort _ _ _ (by decide))
    · exact .refl _ s
  unfold arbitrate
  dsimp only
  split
  · exact .refl _ s
  · exact .refl _ s
  · split
    · exact agree_setPort _ _ _ (by decide)
    · exact agree_setPort _ _ _ (by decide)
    · split
      · exact .refl _ s
      · exact agree_ite (fun _ => begun _) fun _ => .refl _ s

theorem settle_agree (s : State) : State.Agree linkParts s (settle s) :=
  (agree_foldl arbitrate_agree allPorts s).trans (agree_withPorts _ _ (by decide))

theorem failPort_agree (p : Port) (linkLoss : Bool) (s : State) : State.Agree deliveryParts s (failPort p linkLoss s) := by
  have lost : ∀ id s, State.Agree deliveryParts s (markLost id s) := by
    intro id s
    unfold markLost
    split
    · exact .refl _ s
    · exact agree_ite (fun _ => agree_withWindows _ _ (by decide)) fun _ => .refl _ s
  have entry : ∀ s e, State.Agree deliveryParts s (loseEntry p s e) := fun s e =>
    ((releaseSlot_agree _ s (by decide) (by decide)).trans (lost _ _)).trans (agree_setPort _ _ _ (by decide))
  have move : ∀ st cls s, State.Agree deliveryParts s (moveQueue p st cls s) := fun st cls s =>
    ((agree_setPort s _ _ (by decide)).trans (agree_setPort _ _ _ (by decide))).trans (agree_foldl entry _ _)
  unfold failPort
  split
  · exact (((agree_withWindows s _ (by decide)).trans (move _ _ _)).trans (move _ _ _)).trans (raiseWhere_agree _ _ _ (by decide))
  · have release := (agree_setPort s p { s.port p with essential := [], sheddable := [] } (by decide)).trans
      (agree_foldl entry ((s.port p).essential ++ (s.port p).sheddable) _)
    exact agree_ite (fun _ => release.trans (agree_foldl (fun s id => closeWindow_agree id s) _ _)) fun _ => release

theorem abortStrip_agree (p : Port) (s : State) : State.Agree deliveryParts s (abortStrip p s) := by
  unfold abortStrip
  split
  next e _ _ =>
    have released : State.Agree deliveryParts s (releaseSlot e.slot s) := releaseSlot_agree _ s (by decide) (by decide)
    dsimp only
    split
    · exact released
    · refine agree_ite (fun _ => .trans ?_ (agree_setPort _ _ _ (by decide)))
        fun _ => released.trans (closingStripEnd_agree _ _ (by decide))
      refine released.trans ?_
      unfold markLost
      split
      · exact .refl _ _
      · exact agree_ite (fun _ => agree_withWindows _ _ (by decide)) fun _ => .refl _ _
  all_goals exact .refl _ s

theorem cutLink_agree (p : Port) (s : State) : State.Agree deliveryParts s (cutLink p s) :=
  ((agree_setPort s _ _ (by decide)).trans (abortStrip_agree p _)).trans (agree_setPort _ _ _ (by decide))

/-! ### Requests -/

/-- The taking of a request changes what its action changes, and the queues and links of the ports. -/
theorem takeRequest_agree {A : List Part} (p : Port) (kind : Option RequestKind) (act : RequestFrame → State → State × Answer) (s : State)
    (sub : ∀ x ∈ linkParts, x ∈ A) (h : ∀ f t, State.Agree A t (act f t).1) :
    ∃ t, takeRequest p kind act s = .next t ∧ State.Agree A s t := by
  have ports : Part.ports ∈ A := sub _ (by decide)
  unfold takeRequest
  split
  · exact ⟨s, rfl, .refl _ s⟩
  · split
    · exact ⟨_, rfl, (((agree_setPort s _ _ ports).trans (h _ _)).trans (agree_setPort _ _ _ ports)).trans ((settle_agree _).mono sub)⟩
    · exact ⟨s, rfl, .refl _ s⟩

end Sys2Proof.Machine
end

