-- ==== Sys2Proof/Laws/Lines.lean ====
section
/-!
SUPPORT. What the receivers of a line do: the completion of a commit, the searches of the Leveling Engine, the extension of a band
by a line, and the matching of a sealed band; and the payload of a strip.
-/

namespace Sys2Proof.Machine

/-! ### The Correction Block (R78) -/

/-- A table after the copy of a page: the staging entries in that page, and every other entry as before. -/
theorem copyPage_at (staging t : List (Nat × Correction)) (page i : Nat) :
    correctionAt (copyPage staging page t) i =
      if 256 * page ≤ i ∧ i < 256 * page + 256 then correctionAt staging (i - 256 * page) else correctionAt t i := by
  unfold correctionAt copyPage
  rw [tableGet_splice]
  · by_cases h : 256 * page ≤ i ∧ i < 256 * page + 256
    · have h' : Config.pageEntries * page ≤ i ∧ i < Config.pageEntries * page + Config.pageEntries := h
      rw [if_pos h, if_pos h']
      congr 1
      have shifted : ∀ l : List (Nat × Correction), tableGet (l.map fun e => (Config.pageEntries * page + e.1, e.2)) i
          = tableGet l (i - 256 * page) := by
        intro l
        induction l with
        | nil => rfl
        | cons a l ih =>
          simp only [List.map_cons, tableGet]
          by_cases e : a.1 = i - 256 * page
          · rw [if_pos e, if_pos (by simp only [Config.pageEntries]; omega)]
          · rw [if_neg e, if_neg (by simp only [Config.pageEntries]; omega)]; exact ih
      rw [shifted]
      exact (tableGet_filter (fun n => n < 256) staging _).trans (if_pos (by omega))
    · have h' : ¬(Config.pageEntries * page ≤ i ∧ i < Config.pageEntries * page + Config.pageEntries) := h
      rw [if_neg h, if_neg h']
  · intro e he
    simp only [List.mem_map, List.mem_filter, decide_eq_true_eq] at he
    obtain ⟨a, ⟨_, h⟩, rfl⟩ := he
    simp only
    omega

/-! ### The Leveling Engine (chapter 5) -/

theorem Search.anyWaiting_iff (x : Search) : x.anyWaiting = true ↔ x.awaits := by
  unfold Search.anyWaiting Search.awaits
  rw [List.any_eq_true]
  constructor
  · rintro ⟨r, hr, h⟩
    cases r with
    | none => simp at h
    | some r =>
      simp only [PerLane.toList, List.mem_cons, List.not_mem_nil, or_false] at hr
      have h : r.status = .waiting := by simpa using h
      rcases hr with e | e | e | e | e | e | e | e
      exacts [⟨.l0, r, e.symm, h⟩, ⟨.l1, r, e.symm, h⟩, ⟨.l2, r, e.symm, h⟩, ⟨.l3, r, e.symm, h⟩, ⟨.l4, r, e.symm, h⟩,
        ⟨.l5, r, e.symm, h⟩, ⟨.l6, r, e.symm, h⟩, ⟨.l7, r, e.symm, h⟩]
  · rintro ⟨k, r, h, hw⟩
    refine ⟨some r, ?_, by simp [hw]⟩
    cases k <;> simp [PerLane.toList, PerLane.get] at h ⊢ <;> simp [h]

/-- Of the lanes, the end of a search changes the offset items alone (R88). -/
theorem endSearch_lane (x : Search) (cause : EndCause) (w : Line) (s : State) (k : Lane) :
    ∃ o, (endSearch x cause w s).lane k = { s.lane k with pendingOffset := o } := by
  unfold endSearch
  dsimp only
  change ∃ o, State.lane (ite (_ ∧ _ ∧ _) _ _) k = _
  refine iteInduction (motive := fun z : State => ∃ o, z.lane k = { s.lane k with pendingOffset := o }) (fun _ => ?_) fun _ => ⟨_, rfl⟩
  show ∃ o, (s.lanes.map _).get k = _
  rw [PerLane.get_map]
  dsimp only
  split
  · exact ⟨_, rfl⟩
  · split <;> exact ⟨_, rfl⟩

theorem updateRecord_lane (x : Search) (j : Lane) (r : SearchRecord) (s : State) (k : Lane) :
    ∃ o, (updateRecord x j r s).lane k = { s.lane k with pendingOffset := o } := by
  unfold updateRecord
  dsimp only
  split
  · exact ⟨_, rfl⟩
  · exact endSearch_lane _ _ _ _ _

/-- Of the lanes, a line handed to the Leveling Engine changes the offset items alone (R84, R88). -/
theorem levelLine_lane (j : Lane) (stamp : Line) (offset : Nat) (samples : Option (List Byte)) (s : State) (k : Lane) :
    ∃ o, (levelLine j stamp offset samples s).lane k = { s.lane k with pendingOffset := o } := by
  unfold levelLine
  split
  · exact ⟨_, rfl⟩
  · exact ⟨_, rfl⟩
  · split
    · exact ⟨_, rfl⟩
    · refine iteInduction (motive := fun z : State => ∃ o, z.lane k = { s.lane k with pendingOffset := o }) (fun _ => ?_) fun _ => ⟨_, rfl⟩
      exact iteInduction (motive := fun z : State => ∃ o, z.lane k = { s.lane k with pendingOffset := o })
        (fun _ => updateRecord_lane _ _ _ _ _) fun _ => ⟨_, rfl⟩

/-- Of the lanes, a lane that leaves RUN changes through the search the offset items alone (R85, R88). -/
theorem levelLeavesRun_lane (j : Lane) (s : State) (k : Lane) :
    ∃ o, (levelLeavesRun j s).lane k = { s.lane k with pendingOffset := o } := by
  unfold levelLeavesRun
  split
  · exact ⟨_, rfl⟩
  · exact ⟨_, rfl⟩
  · split
    · exact ⟨_, rfl⟩
    · split
      · exact updateRecord_lane _ _ _ _ _
      · exact ⟨_, rfl⟩

/-- The result of a NOT_RUNNING lane is never FOUND (R87). -/
theorem laneResult_notRunning (x : Search) (cause : EndCause) (k : Lane) (r : SearchRecord) (h : r.status = .notRunning) :
    (laneResult x cause k r).status ≠ .found := by
  unfold laneResult
  split
  · exact nofun
  · dsimp only
    split
    · simp [rawResult, h]
    · exact nofun

/-- A lane that leaves RUN keeps its own items: a search that it ends has it NOT_RUNNING and stages no offset for it (R85, R88). -/
theorem levelLeavesRun_own (k : Lane) (s : State) : (levelLeavesRun k s).lane k = s.lane k := by
  unfold levelLeavesRun
  split
  · rfl
  · rfl
  · split
    · rfl
    · refine iteInduction (motive := fun z : State => z.lane k = s.lane k) (fun _ => ?_) fun _ => rfl
      unfold updateRecord
      refine iteInduction (motive := fun z : State => z.lane k = s.lane k) (fun _ => rfl) fun _ => ?_
      unfold endSearch
      dsimp only
      change State.lane (ite (_ ∧ _ ∧ _) _ _) k = _
      refine iteInduction (motive := fun z : State => z.lane k = s.lane k) (fun _ => ?_) fun _ => rfl
      show (s.lanes.map _).get k = s.lanes.get k
      rw [PerLane.get_map]
      simp [Search.results, PerLane.get_map, laneResult_notRunning]

/-! ### The Band Store Controller (R95, R96, R100) -/

/-- A line placed into a band of its block and width: the band's record, the stored bytes, and the seal at slot line 63. -/
theorem extendBand_spec (x : Placement) (s : State) (slot : Nat) (b : Band) (width : b.width = x.width) (block : b.block = x.irl / 64)
    (inStore : slot < 4096) (inLine : x.width ≤ 8192) : let kept := (x.samples.getD []).take x.width
    ∃ t, extendBand slot b x s = (if x.irl % 64 = 63 then sealBand x.lane false t else t)
      ∧ t.bsc = { s.bsc with bands := tablePut s.bsc.bands slot { b with
          lastIrl := x.irl, presence := b.presence ++ if x.samples.isSome then [(x.irl, kept.length)] else [] } }
      ∧ (∀ a, dramRead t.dram a =
          let first := slot * 524288 + x.irl % 64 * 8192
          if first ≤ a ∧ a < first + kept.length then kept[a - first]?.getD 0 else dramRead s.dram a)
      ∧ State.Agree [.bsc, .dram] s t := by
  intro kept
  have last : x.irl = Config.blockLines * b.block + (Config.blockLines - 1) ↔ x.irl % 64 = 63 := by
    simp only [Config.blockLines, block]; omega
  have sealed : ∀ t : State, (if x.irl = Config.blockLines * b.block + (Config.blockLines - 1) then sealBand x.lane false t else t)
      = if x.irl % 64 = 63 then sealBand x.lane false t else t := by
    intro t
    by_cases h : x.irl % 64 = 63
    · rw [if_pos h, if_pos (last.mpr h)]
    · rw [if_neg h, if_neg fun e => h (last.mp e)]
  have bound : x.irl % 64 < 64 := Nat.mod_lt _ (by decide)
  unfold extendBand
  cases hs : x.samples with
  | none =>
    have empty : kept = [] := by simp [kept, hs]
    refine ⟨putBand slot { b with lastIrl := x.irl } s, sealed _, by simp [putBand], fun a => ?_, agree_withBsc _ _ (by decide)⟩
    simp only [empty, List.length_nil]
    rw [if_neg (by omega)]
    rfl
  | some ys =>
    have same : kept = ys.take b.width := by simp [kept, hs, width]
    refine ⟨(putBand slot { b with lastIrl := x.irl, presence := b.presence ++ [(x.irl, (ys.take b.width).length)] } s).withDram
      (dramWrite s.dram (sampleAddress slot b.block x.irl) (ys.take b.width)), sealed _, ?_, fun a => ?_, ?_⟩
    · rw [same]; rfl
    · have address : sampleAddress slot b.block x.irl = slot * 524288 + x.irl % 64 * 8192 := by
        simp only [sampleAddress, Config.slotBytes, Config.blockLines, Config.slotLineBytes, block]; omega
      have short : (ys.take b.width).length ≤ 8192 := by rw [List.length_take]; omega
      show dramRead (dramWrite s.dram (sampleAddress slot b.block x.irl) (ys.take b.width)) a = _
      rw [address, dramRead_dramWrite, same]
      · rfl
      · simp only [Config.storeBytes]; omega
    · exact (agree_withBsc s _ (by decide)).trans (agree_withDram _ _ (by decide))

/-! ### The Window Matcher (R123) -/

/-- The judgment of a window makes no window and frees none. -/
theorem matchWindow_window_isSome (slot : Nat) (b : Band) (acc : State × Nat) (id other : Nat) :
    ((matchWindow slot b acc id).1.window other).isSome = (acc.1.window other).isSome := by
  unfold matchWindow
  split
  · rfl
  · next w hw =>
    split
    · split
      · rfl
      · show (tableGet (tablePut acc.1.windows id _) other).isSome = _
        rw [tableGet_put]
        split
        · next h => subst h; rw [hw]; rfl
        · rfl
    · rfl

/-- The judgment of a window makes at most one entry. -/
theorem matchWindow_count (slot : Nat) (b : Band) (acc : State × Nat) (id : Nat) : (matchWindow slot b acc id).2 ≤ acc.2 + 1 := by
  unfold matchWindow
  split
  · exact Nat.le_succ _
  · split
    · split
      · exact Nat.le_refl _
      · exact Nat.le_succ _
    · exact Nat.le_succ _

/-- Matching leaves the band store as it is. -/
theorem matchBand_bsc (slot : Nat) (b : Band) (s : State) : (matchBand slot b s).1.bsc = s.bsc :=
  (matchBand_agree (A := [.windows, .ports]) slot b s (by decide) (by decide)).bsc (by decide)

/-! ### The payload of a strip (R138) -/

/-- Rows of equal length joined: the length, and the byte of a row and a column. -/
theorem rows_get {α : Type} (n m : Nat) (f : Nat → Nat → α) :
    ((List.range n).flatMap fun i => (List.range m).map (f i)).length = n * m
    ∧ ∀ i j, i < n → j < m → ((List.range n).flatMap fun i => (List.range m).map (f i))[i * m + j]? = some (f i j) := by
  have len : ∀ n, ((List.range n).flatMap fun i => (List.range m).map (f i)).length = n * m := fun n => by
    simp [List.length_flatMap, List.map_const', List.sum_replicate]
  refine ⟨len n, ?_⟩
  induction n with
  | zero => intro i j h; omega
  | succ n ih =>
    intro i j hi hj
    rw [List.range_succ, List.flatMap_append, List.flatMap_singleton]
    by_cases h : i < n
    · rw [List.getElem?_append_left]
      · exact ih i j h hj
      · rw [len]
        calc i * m + j < (i + 1) * m := by rw [Nat.succ_mul]; omega
          _ ≤ n * m := Nat.mul_le_mul_right _ h
    · obtain rfl : i = n := by omega
      rw [List.getElem?_append_right (by rw [len]; omega), len]
      simp [hj]

/-- The payload of a strip: its length, and the band's content at each clipped line and column (R138). -/
theorem stripPayload_get (mem : List Host.Cell) (e : Entry) (b : Band) (fill : Byte) :
    (stripPayload mem e b fill).length = e.lines * e.columns
    ∧ ∀ i j, i < e.lines → j < e.columns → (stripPayload mem e b fill)[i * e.columns + j]?
      = some (bandContent mem e.slot b fill (e.firstIrl + i) (e.firstColumn + j - b.base)) :=
  rows_get e.lines e.columns fun i j => bandContent mem e.slot b fill (e.firstIrl + i) (e.firstColumn + j - b.base)

end Sys2Proof.Machine
end

