-- ==== Sys2Proof/Laws/Links.lean ====
section
/-!
SUPPORT. The end of an event: what the arbiters and the stall timers do, and what the taking of a request comes to in a settled state.
-/

namespace Sys2Proof.Machine

/-! ### Stall timers -/

theorem judgeStall_isSome (s : State) (c : ConsumerPort) : (judgeStall s c).stall.isSome = c.stalling := by
  unfold judgeStall
  by_cases h : c.stalling
  · rw [if_pos h]
    cases hs : c.stall <;> simp [h, hs]
  · rw [if_neg h]; simp [h]

theorem judgeStall_stalling (s : State) (c : ConsumerPort) : (judgeStall s c).stalling = c.stalling := by
  unfold judgeStall
  split
  · split <;> rfl
  · rfl

theorem judgeStall_of_settled (s : State) (c : ConsumerPort) (h : c.stall.isSome = c.stalling) : judgeStall s c = c := by
  unfold judgeStall
  cases hs : c.stall with
  | none =>
    rw [if_neg (by rw [← h, hs]; simp)]
    cases c; simp_all
  | some t => rw [if_pos (by rw [← h, hs]; rfl)]

/-! ### The arbiter

`ConsumerPort.restful` says of a port alone, with the windows and bands it sees, that its arbiter begins nothing. -/

/-- Whether a strip could be begun for an entry: its window is not FREE and its band is sealed (R137, log 22). -/
def beginnable (windows : List (Nat × Window)) (bands : List (Nat × Band)) (e : Entry) : Prop :=
  (∃ w, tableGet windows e.window = some w) ∧ ∃ b r, tableGet bands e.slot = some b ∧ b.sealing = some r

/-- A port whose arbiter begins nothing. -/
def ConsumerPort.restful (windows : List (Nat × Window)) (bands : List (Nat × Band)) (c : ConsumerPort) : Prop :=
  c.state ≠ .down → c.outbound = none →
    c.responses = [] ∧ c.notice = none ∧ ∀ e, c.nextEntry = some e → c.state = .live → 1 ≤ c.credit → ¬beginnable windows bands e

theorem State.setPort_eq_self (s : State) (p : Port) (c : ConsumerPort) : s.setPort p c = s ↔ c = s.port p := by
  constructor
  · intro h
    have := congrArg (fun t => State.port t p) h
    simpa using this
  · rintro rfl; simp

theorem beginStrip_outbound (p : Port) (e : Entry) (s : State) (h : beginnable s.windows s.bsc.bands e) :
    ((beginStrip p e s).port p).outbound ≠ none := by
  obtain ⟨⟨w, hw⟩, b, r, hb, hr⟩ := h
  simp [beginStrip, State.window, State.band, hw, hb, hr]

theorem beginStrip_fails (p : Port) (e : Entry) (s : State) (h : ¬beginnable s.windows s.bsc.bands e) : beginStrip p e s = s := by
  unfold beginStrip
  split
  next w b hw hb =>
    split
    · rfl
    next r hr => exact absurd ⟨⟨w, hw⟩, b, r, hb, hr⟩ h
  · rfl

/-- A port's arbiter leaves the state as it is exactly when it has nothing to begin. -/
theorem arbitrate_eq_self (s : State) (p : Port) : arbitrate s p = s ↔ (s.port p).restful s.windows s.bsc.bands := by
  unfold arbitrate ConsumerPort.restful
  dsimp only
  split
  next h => simp [h]
  next hf _ => simp [hf]
  next hout hst =>
    split
    next r rest hr =>
      rw [State.setPort_eq_self]
      constructor
      · intro h
        have := congrArg ConsumerPort.outbound h
        simp [hout] at this
      · intro h
        have := (h hst hout).1
        rw [hr] at this
        exact absurd this (by simp)
    next kinds hr hn =>
      rw [State.setPort_eq_self]
      constructor
      · intro h
        have := congrArg ConsumerPort.outbound h
        simp [hout] at this
      · intro h
        have := (h hst hout).2.1
        rw [hn] at this
        exact absurd this (by simp)
    next hr hn =>
      split
      next he => simp [he, hr, hn]
      next e he =>
        by_cases hc : (s.port p).state = .live ∧ 1 ≤ (s.port p).credit
        · rw [if_pos hc]
          constructor
          · intro h _ _
            refine ⟨hr, hn, ?_⟩
            intro e' he' _ _ hb
            rw [he] at he'
            cases he'
            have := beginStrip_outbound p e s hb
            rw [h] at this
            exact this hout
          · intro h
            exact beginStrip_fails p e s ((h hst hout).2.2 e he hc.1 hc.2)
        · rw [if_neg hc]
          simp only [hr, hn, he, true_and, true_iff]
          intro _ _ e' _ h1 h2
          exact absurd ⟨h1, h2⟩ hc

/-! ### The end of an event in a settled state -/

theorem Settled.port_restful {s : State} (h : Settled s) (p : Port) : (s.port p).restful s.windows s.bsc.bands :=
  (arbitrate_eq_self s p).mp (h.arbiter p)

theorem ConsumerPort.restful_congr {ws : List (Nat × Window)} {bs : List (Nat × Band)} {c d : ConsumerPort}
    (h : c.restful ws bs) (state : d.state = c.state) (out : d.outbound = c.outbound ∨ d.outbound ≠ none)
    (resp : d.responses = c.responses) (notice : d.notice = c.notice) (credit : d.credit = c.credit)
    (ess : d.essential = c.essential) (shed : d.sheddable = c.sheddable) : d.restful ws bs := by
  intro hs ho
  rcases out with out | out
  · have := h (state ▸ hs) (out ▸ ho)
    simp only [resp, notice, credit, state, ConsumerPort.nextEntry, ess, shed]
    exact this
  · exact absurd ho out

/-- With every port at rest and every stall timer as its conditions ask, the end of an event changes nothing. -/
theorem settle_settled {s : State} (h : Settled s) : settle s = s := by
  have fold : ∀ ps : List Port, ps.foldl arbitrate s = s := by
    intro ps
    induction ps with
    | nil => rfl
    | cons p ps ih => rw [List.foldl_cons, h.arbiter p, ih]
  unfold settle
  dsimp only
  rw [fold]
  have : (s.ports.map fun _ c => judgeStall s c) = s.ports := by
    apply PerPort.ext_get
    intro p
    rw [PerPort.get_map]
    exact judgeStall_of_settled s _ (h.stall p)
  rw [this]; rfl

/-- What an arbiter leaves: its own port at rest, the other ports as they were, the bands, and the ids of the windows in use. -/
theorem arbitrate_spec (s : State) (p : Port) :
    ((arbitrate s p).port p).restful (arbitrate s p).windows (arbitrate s p).bsc.bands
    ∧ (∀ q, q ≠ p → (arbitrate s p).port q = s.port q) ∧ (arbitrate s p).bsc = s.bsc
    ∧ ∀ id, (tableGet (arbitrate s p).windows id).isSome = (tableGet s.windows id).isSome := by
  by_cases hr : arbitrate s p = s
  · rw [hr]; exact ⟨(arbitrate_eq_self s p).mp hr, fun _ _ => rfl, rfl, fun _ => rfl⟩
  · have busy : ∀ t : State, (t.port p).outbound ≠ none → (t.port p).restful t.windows t.bsc.bands :=
      fun t ht _ h => absurd h ht
    revert hr
    unfold arbitrate
    dsimp only
    split
    · intro h; exact absurd rfl h
    · intro h; exact absurd rfl h
    · split
      · intro _
        exact ⟨busy _ (by simp), fun q hq => State.port_setPort_ne _ _ hq, rfl, fun _ => rfl⟩
      · intro _
        exact ⟨busy _ (by simp), fun q hq => State.port_setPort_ne _ _ hq, rfl, fun _ => rfl⟩
      · split
        · intro h; exact absurd rfl h
        next e _ =>
          split
          · intro h
            have hb : beginnable s.windows s.bsc.bands e := by
              by_contra hc
              exact h (beginStrip_fails p e s hc)
            refine ⟨busy _ (beginStrip_outbound p e s hb), ?_⟩
            obtain ⟨⟨w, hw⟩, b, r, hb, hr⟩ := hb
            refine ⟨fun q hq => ?_, ?_, fun id => ?_⟩
            · simp [beginStrip, State.window, State.band, hw, hb, hr, State.port_setPort_ne _ _ hq, putWindow]
            · simp [beginStrip, State.window, State.band, hw, hb, hr, putWindow]
            · simp only [beginStrip, State.window, State.band, hw, hb, hr, putWindow, State.setPort_windows, State.withWindows_windows]
              rw [tableGet_put]
              split
              next hi => subst hi; simp [hw]
              · rfl
          · intro h; exact absurd rfl h

theorem beginnable_congr {ws vs : List (Nat × Window)} {bs : List (Nat × Band)} (h : ∀ id, (tableGet ws id).isSome = (tableGet vs id).isSome)
    (e : Entry) : beginnable ws bs e ↔ beginnable vs bs e := by
  unfold beginnable
  have : (∃ w, tableGet ws e.window = some w) ↔ ∃ w, tableGet vs e.window = some w := by
    rw [← Option.isSome_iff_exists, ← Option.isSome_iff_exists, h]
  rw [this]

/-- After the end of an event no arbiter has a frame to begin, and every stall timer runs exactly while its conditions hold. -/
theorem settled_settle (s : State) : Settled (settle s) := by
  have fold : ∀ (ps : List Port) (s : State), (∀ q, q ∉ ps → (s.port q).restful s.windows s.bsc.bands) →
      ∀ q, ((ps.foldl arbitrate s).port q).restful (ps.foldl arbitrate s).windows (ps.foldl arbitrate s).bsc.bands := by
    intro ps
    induction ps with
    | nil => intro s h q; exact h q (by simp)
    | cons p ps ih =>
      intro s h
      refine ih _ fun q hq => ?_
      obtain ⟨own, others, bsc, ids⟩ := arbitrate_spec s p
      by_cases hp : q = p
      · subst hp; exact own
      · intro hs ho
        rw [others q hp] at hs ho ⊢
        obtain ⟨r, n, e⟩ := h q (by simp [hp, hq]) hs ho
        refine ⟨r, n, fun x hx hl hc => ?_⟩
        rw [bsc, beginnable_congr ids]
        exact e x hx hl hc
  have rest := fold allPorts s fun q hq => absurd (by cases q <;> simp [allPorts]) hq
  have port : ∀ q, (settle s).port q = judgeStall (allPorts.foldl arbitrate s) ((allPorts.foldl arbitrate s).port q) := fun q =>
    PerPort.get_map _ _ q
  constructor
  · intro q
    rw [arbitrate_eq_self, port q]
    refine ConsumerPort.restful_congr (rest q) ?_ ?_ ?_ ?_ ?_ ?_ ?_
    all_goals (unfold judgeStall; split <;> (try split) <;> simp)
  · intro q
    rw [port q, judgeStall_isSome, judgeStall_stalling]

/-- What the taking of a request comes to in a settled state whose windows, bands and other ports the action leaves as they are, and
of whose own port it changes neither the link side nor what a strip or the stall timer needs: the response is begun on an idle link
and waits on a busy one, and the stall timer is left. -/
theorem settle_respond {s t : State} {p : Port} {f : RequestFrame} {a : Answer} {rest : List RequestFrame} (h : Settled s)
    (up : (s.port p).isUp = true) (windows : t.windows = s.windows) (bands : t.bsc.bands = s.bsc.bands)
    (own : t.port p = { s.port p with requests := rest }) (others : ∀ q, q ≠ p → t.port q = s.port q) :
    settle (respond p f a t) = t.setPort p ((s.port p).answered rest (a.response f)) := by
  have hd : (s.port p).state ≠ .down := by
    intro e; simp [ConsumerPort.isUp, e] at up
  have rp := h.port_restful p
  set u := t.setPort p ((s.port p).answered rest (a.response f)) with hu
  have hup : u.port p = (s.port p).answered rest (a.response f) := by simp [hu]
  have huq : ∀ q, q ≠ p → u.port q = s.port q := fun q hq => by
    rw [hu, State.port_setPort_ne _ _ hq, others q hq]
  have settled : Settled u := by
    constructor
    · intro q
      rw [arbitrate_eq_self]
      have hw : u.windows = s.windows := by simp [hu, windows]
      have hb : u.bsc.bands = s.bsc.bands := by simp [hu, bands]
      rw [hw, hb]
      by_cases hq : q = p
      · subst hq
        rw [hup]
        unfold ConsumerPort.answered
        split
        · intro _ ho; simp at ho
        next g ho => intro _ ho'; simp [ho] at ho'
      · rw [huq q hq]; exact h.port_restful q
    · intro q
      by_cases hq : q = p
      · subst hq
        rw [hup]
        unfold ConsumerPort.answered
        split <;> exact h.stall q
      · rw [huq q hq]; exact h.stall q
  cases ho : (s.port p).outbound with
  | some g =>
    have e : respond p f a t = u := by
      simp [respond, hu, own, ConsumerPort.answered, ho]
    rw [e]; exact settle_settled settled
  | none =>
    have hr := (rp hd ho).1
    have first : arbitrate (respond p f a t) p = u := by
      have hport : (respond p f a t).port p = { s.port p with requests := rest, responses := [a.response f] } := by
        simp [respond, own, hr]
      unfold arbitrate
      dsimp only
      rw [hport]
      simp only [ho]
      simp [respond, hu, ConsumerPort.answered, ho, hr]
    have other : ∀ q, q ≠ p → arbitrate (respond p f a t) q = respond p f a t := by
      intro q hq
      rw [arbitrate_eq_self]
      have : (respond p f a t).port q = s.port q := by
        unfold respond; rw [State.port_setPort_ne _ _ hq, others q hq]
      rw [this]
      have hw : (respond p f a t).windows = s.windows := by simp [respond, windows]
      have hb : (respond p f a t).bsc.bands = s.bsc.bands := by simp [respond, bands]
      rw [hw, hb]; exact h.port_restful q
    have fold : allPorts.foldl arbitrate (respond p f a t) = u := by
      have rest : ∀ q, arbitrate u q = u := settled.arbiter
      cases p <;> simp [allPorts, first, other, rest]
    have eq : settle (respond p f a t) = settle u := by
      have fu : allPorts.foldl arbitrate u = u := by simp [allPorts, settled.arbiter]
      unfold settle
      dsimp only
      rw [fold, fu]
    rw [eq]; exact settle_settled settled

/-- The taking of a request in a settled state, for an action that keeps to the frame of `settle_respond`. -/
theorem takeRequest_settled {s : State} {p : Port} {f : RequestFrame} {rest : List RequestFrame} {k : Option RequestKind}
    {act : RequestFrame → State → State × Answer} {t : State} {a : Answer} (h : Settled s) (taken : Taken s p f rest)
    (kind : f.requestKind = k)
    (does : act f (s.setPort p { s.port p with requests := rest }) = (t, a))
    (windows : t.windows = s.windows) (bands : t.bsc.bands = s.bsc.bands)
    (own : t.port p = { s.port p with requests := rest }) (others : ∀ q, q ≠ p → t.port q = s.port q) :
    takeRequest p k act s = .next (t.setPort p ((s.port p).answered rest (a.response f))) := by
  have up : (s.port p).isUp = true := by
    have := taken.takes
    simp only [State.takesRequests, Bool.and_eq_true] at this
    exact this.1.1
  unfold takeRequest
  rw [taken.head]
  simp only [kind, taken.takes, and_self, if_true, does]
  rw [settle_respond h up windows bands own others]

theorem kindOfCode_code (k : RequestKind) : kindOfCode k.code = some k := by cases k <;> rfl

/-- The kind byte of a request's frame names the request's kind. -/
theorem Request.frame_kind (r : Request) (tag : Byte) : (r.frame tag).requestKind = some r.kind := by
  have small : r.kind.code < 256 := by cases r.kind <;> decide
  show kindOfCode (BitVec.ofNat 8 r.kind.code).toNat = some r.kind
  rw [BitVec.toNat_ofNat, Nat.mod_eq_of_lt small]
  exact kindOfCode_code _

end Sys2Proof.Machine
end

