-- ==== Sys2Proof/Laws/Operands.lean ====
section
/-!
SUPPORT. The bytes of fields: how many they are, and the value they are read back as; the codes of the enumerated fields.
-/

namespace Sys2Proof.Machine

/-! ### Numbers -/

@[simp] theorem leBytes_length (n v : Nat) : (leBytes n v).length = n := by
  induction n generalizing v with
  | zero => rfl
  | succ n ih => simp [leBytes, ih]

theorem leValue_leBytes_mod (n v : Nat) : leValue (leBytes n v) = v % 256 ^ n := by
  induction n generalizing v with
  | zero => simp [leBytes, leValue, Nat.mod_one]
  | succ n ih =>
    have hb : (BitVec.ofNat 8 v).toNat = v % 256 := by rw [BitVec.toNat_ofNat]
    rw [leBytes, leValue, ih, hb, Nat.pow_succ', Nat.mod_mul]

/-- A value that fits its field's bytes is read back from them (11.1). -/
theorem leValue_leBytes {n v : Nat} (h : v < 256 ^ n) : leValue (leBytes n v) = v := by
  rw [leValue_leBytes_mod, Nat.mod_eq_of_lt h]

theorem leValue_lt (bs : List Byte) : leValue bs < 256 ^ bs.length := by
  induction bs with
  | nil => simp [leValue]
  | cons b bs ih =>
    have hb := b.isLt
    rw [leValue, List.length_cons, Nat.pow_succ']
    omega

/-- The bytes of a field are determined by its value. -/
theorem leBytes_leValue (bs : List Byte) : leBytes bs.length (leValue bs) = bs := by
  induction bs with
  | nil => rfl
  | cons b bs ih =>
    have hb := b.isLt
    have hdiv : (b.toNat + 256 * leValue bs) / 256 = leValue bs := by omega
    rw [List.length_cons, leBytes, leValue, hdiv, ih]
    congr 1
    apply BitVec.eq_of_toNat_eq
    rw [BitVec.toNat_ofNat]
    omega

theorem leBytes_one (v : Nat) : leBytes 1 v = [BitVec.ofNat 8 v] := rfl

theorem leBytes_two (v : Nat) : leBytes 2 v = [BitVec.ofNat 8 v, BitVec.ofNat 8 (v / 256)] := rfl

theorem leBytes_four (v : Nat) :
    leBytes 4 v = [BitVec.ofNat 8 v, BitVec.ofNat 8 (v / 256), BitVec.ofNat 8 (v / 256 / 256), BitVec.ofNat 8 (v / 256 / 256 / 256)] :=
  rfl

theorem byte_toNat {v : Nat} (h : v < 256) : (BitVec.ofNat 8 v).toNat = v := by
  rw [BitVec.toNat_ofNat, Nat.mod_eq_of_lt h]

/-! ### Codes -/

@[simp] theorem boolOfCode_codeOfBool (b : Bool) : boolOfCode (codeOfBool b) = some b := by cases b <;> rfl
@[simp] theorem edgeOfCode_codeOfEdge (e : MarkDirection) : edgeOfCode (codeOfEdge e) = some e := by cases e <;> rfl
@[simp] theorem modeOfCode_codeOfMode (m : LaneMode) : modeOfCode (codeOfMode m) = some m := by
  rcases m with _ | m
  · rfl
  · cases m <;> rfl
@[simp] theorem sourceOfCode_codeOfSource (x : Source) : sourceOfCode (codeOfSource x) = some x := by cases x <;> rfl
@[simp] theorem classOfCode_codeOfClass (c : DeliveryClass) : classOfCode (codeOfClass c) = some c := by cases c <;> rfl
@[simp] theorem outputOfCode_codeOfOutput (o : Output) : outputOfCode (codeOfOutput o) = some o := by cases o <;> rfl
@[simp] theorem markerModeOfCode_codeOfMarkerMode (m : MarkerMode) : markerModeOfCode (codeOfMarkerMode m) = some m := by cases m <;> rfl
@[simp] theorem polarityOfCode_codeOfPolarity (p : Polarity) : polarityOfCode (codeOfPolarity p) = some p := by cases p <;> rfl
@[simp] theorem selectorOfCode_codeOfSelector (b : Bool) : selectorOfCode (codeOfSelector b) = some b := by cases b <;> rfl
@[simp] theorem noticeOfCode_noticeCode (k : NoticeKind) : noticeOfCode (noticeCode k) = some k := by cases k <;> rfl
@[simp] theorem standbyOfCode_codeOfPort (p : Option Port) : standbyOfCode (codeOfPort p) = some p := by
  rcases p with _ | p
  · rfl
  · cases p <;> rfl

/-- Every code of an enumerated field of a request fits its byte. -/
theorem codes_lt :
    (∀ b, codeOfBool b < 256) ∧ (∀ e, codeOfEdge e < 256) ∧ (∀ m, codeOfMode m < 256) ∧ (∀ x, codeOfSource x < 256)
    ∧ (∀ c, codeOfClass c < 256) ∧ (∀ o, codeOfOutput o < 256) ∧ (∀ m, codeOfMarkerMode m < 256) ∧ (∀ p, codeOfPolarity p < 256)
    ∧ (∀ p, codeOfPort p < 256) ∧ (∀ b, codeOfSelector b < 256) ∧ (∀ k, noticeCode k < 256) ∧ ∀ k : RequestKind, k.code < 256 := by
  refine ⟨?_, ?_, ?_, ?_, ?_, ?_, ?_, ?_, ?_, ?_, ?_, ?_⟩
  · intro b; cases b <;> decide
  · intro b; cases b <;> decide
  · intro m
    rcases m with _ | m
    · decide
    · cases m <;> decide
  · intro b; cases b <;> decide
  · intro b; cases b <;> decide
  · intro b; cases b <;> decide
  · intro b; cases b <;> decide
  · intro b; cases b <;> decide
  · intro p
    rcases p with _ | p
    · decide
    · cases p <;> decide
  · intro b; cases b <;> decide
  · intro b; cases b <;> decide
  · intro b; cases b <;> decide

end Sys2Proof.Machine
end

