-- ==== Sys2Proof/Laws/Repeat.lean ====
section
/-!
SUPPORT. What the shared operations of the Repeat Unit do: a change of the lock, the pending settings at an opening, the opening itself,
and the chain expiry check.
-/

namespace Sys2Proof.Machine

/-- A change of the lock sets it and nothing else of the Repeat Unit. -/
theorem goLock_ru (l : LockState) (s : State) : (goLock l s).ru = { s.ru with lock := l } := by
  unfold goLock
  split
  · next h => subst h; rfl
  · rfl

/-- A change of the lock raises LOCK at every LIVE or STALLED port, exactly where the lock differs (2.5). -/
theorem goLock_port (l : LockState) (s : State) (p : Port) :
    ((goLock l s).port p).isUp = (s.port p).isUp
    ∧ ((goLock l s).port p).pendingSet = if (s.port p).isUp then
        (if l = s.ru.lock then (s.port p).pendingSet else NoticeSet.add (s.port p).pendingSet .lock) else (s.port p).pendingSet := by
  unfold goLock
  split
  · next h => subst h; simp
  · next h =>
    have ne : ¬l = s.ru.lock := fun e => h e.symm
    constructor
    · show ((raiseWhere _ _ _).port p).isUp = _
      obtain ⟨a, b, h⟩ := raiseWhere_kept (fun _ c => c.isUp) .lock (s.withRu { s.ru with lock := l }) p
      rw [h]; rfl
    · show ((raiseWhere _ _ _).port p).pendingSet = _
      rw [raiseWhere_pendingSet]
      simp only [ne, if_false]
      rfl

/-- The lock after a repeat opening, by the table of R38. -/
def RepeatUnit.lockOpened (u : RepeatUnit) : LockState :=
  match u.pendingSettings with
  | none => u.lock
  | some r => match u.settings.tracking, r.tracking with
    | false, true => .hunt
    | true, false => .off
    | _, _ => u.lock

/-- The miss count after a repeat opening, by the table of R38. -/
def RepeatUnit.missesOpened (u : RepeatUnit) : Nat :=
  match u.pendingSettings with
  | none => u.misses
  | some r => match u.settings.tracking, r.tracking with
    | false, true => 0
    | _, _ => u.misses

/-- The pending set of a port after LOCK is raised at a change of the lock by an opening. -/
def lockRaised (u : RepeatUnit) (c : ConsumerPort) : NoticeSet :=
  if u.lockOpened = u.lock then c.pendingSet else NoticeSet.add c.pendingSet .lock

/-- Everything that the pending settings do at an opening (R38). -/
theorem applySettings_spec (s : State) :
    (applySettings s).ru = { s.ru with
      settings := s.ru.pendingSettings.getD s.ru.settings, pendingSettings := none
      chain := if s.ru.pendingSettings.isSome then none else s.ru.chain
      lock := s.ru.lockOpened, misses := s.ru.missesOpened }
    ∧ ∀ p, ((applySettings s).port p).isUp = (s.port p).isUp
      ∧ ((applySettings s).port p).pendingSet = if (s.port p).isUp then lockRaised s.ru (s.port p) else (s.port p).pendingSet := by
  unfold applySettings lockRaised RepeatUnit.lockOpened RepeatUnit.missesOpened
  cases hx : s.ru.pendingSettings with
  | none =>
    refine ⟨?_, fun p => ⟨rfl, by simp⟩⟩
    cases hu : s.ru
    simp [hu] at hx ⊢
    exact hx
  | some r =>
    dsimp only
    rcases ht : s.ru.settings with ⟨length, tracking, edge, m, wc, cmax, qacq, kmiss⟩
    rcases r with ⟨length', tracking', edge', m', wc', cmax', qacq', kmiss'⟩
    cases tracking <;> cases tracking' <;> dsimp only
    · exact ⟨rfl, fun p => ⟨rfl, by simp⟩⟩
    · rw [goLock_ru]; exact ⟨rfl, fun p => goLock_port .hunt _ p⟩
    · rw [goLock_ru]; exact ⟨rfl, fun p => goLock_port .off _ p⟩
    · exact ⟨rfl, fun p => ⟨rfl, by simp⟩⟩

/-- Everything that a repeat opening does (R21, R22, R38). -/
theorem openRepeat_spec (w : Line) (cause : Option RestartKind) (s : State) :
    (openRepeat w cause s).ru = (
      let u := { closeAndAppend w cause.isSome s.ru with
        settings := s.ru.pendingSettings.getD s.ru.settings, pendingSettings := none
        chain := if s.ru.pendingSettings.isSome then none else s.ru.chain
        lock := s.ru.lockOpened, misses := s.ru.missesOpened }
      recordLock (match cause with
        | none => u
        | some kind => labelRestart kind u))
    ∧ ∀ p, ((openRepeat w cause s).port p).pendingSet =
        if (s.port p).isUp then NoticeSet.add (lockRaised s.ru (s.port p)) .repeatOpened else (s.port p).pendingSet := by
  obtain ⟨ru, port⟩ := applySettings_spec (s.withRu (closeAndAppend w cause.isSome s.ru))
  refine ⟨?_, fun p => ?_⟩
  · unfold openRepeat
    cases cause <;> (show recordLock _ = _; simp only []; rw [ru]; rfl)
  · obtain ⟨up, pending⟩ := port p
    show ((raiseWhere _ _ _).port p).pendingSet = _
    rw [raiseWhere_pendingSet]
    show (if ((applySettings _).port p).isUp then NoticeSet.add ((applySettings _).port p).pendingSet .repeatOpened
      else ((applySettings _).port p).pendingSet) = _
    rw [up, pending]
    show (if (s.port p).isUp then NoticeSet.add (if (s.port p).isUp then _ else _) _ else (if (s.port p).isUp then _ else _)) = _
    by_cases h : (s.port p).isUp = true
    · simp only [h, if_true]; rfl
    · simp only [h]; rfl

/-- The chain expiry check empties an expired chain and does nothing else (R30). -/
theorem chainExpiry_spec (w : Line) (s : State) :
    (ChainExpired w s → chainExpiry w s = s.withRu { s.ru with chain := none }) ∧ (¬ChainExpired w s → chainExpiry w s = s) := by
  unfold ChainExpired chainExpiry
  constructor
  · rintro ⟨lock, c, chain, d⟩
    rw [lock, chain]
    exact if_pos (by simpa [RepeatSettings.lines] using d)
  · intro no
    cases lock : s.ru.lock <;> try rfl
    cases chain : s.ru.chain with
    | none => rfl
    | some c => exact if_neg fun d => no ⟨lock, c, chain, by simpa [RepeatSettings.lines] using d⟩

end Sys2Proof.Machine
end

