-- ==== Sys2Proof/WellFormed.lean ====
section
/-!
DEFINITION. Which commands are well formed. Ports, lanes, outputs and levels have no ill-formed values;
a line frame carries a sample count of 1 or more (3.5). The bytes of a received request frame may be anything:
R177 judges them.
-/

namespace Sys2Proof

/-- A line frame holds at least one sample (3.5). -/
def LineFrame.wellFormed : LineFrame → Bool
  | .good samples => !samples.isEmpty
  | .damaged => true

/-- The well-formed commands. -/
def Instr.wellFormed : Instr → Bool
  | .lineArrival _ frame => frame.wellFormed
  | .powerOn _ | .encoderCount _ | .gateReopen | .stopTimerExpiry | .speedGateEnd | .setMotion _ => true
  | .chainExpiry | .markEdge _ | .repeatRestart _ | .setRepeat _ | .snapshot _ | .log _ => true
  | .setLane _ | .laneLinkLoss _ | .laneLinkReturn _ | .laneInfo _ => true
  | .pageClear _ | .pageSeek _ | .pageFill _ | .pageCommit _ | .tableRead _ => true
  | .levelStart _ | .spanEnd | .levelAbort _ | .levelResults _ => true
  | .setStore _ | .windowOpen _ | .windowClose _ | .windowReturn _ | .windowInfo _ => true
  | .steeringLinkUp _ | .grant _ | .frameCompletion _ | .stripCompletion _ => true
  | .stallTimerExpiry _ | .steeringLinkLoss _ | .requestArrival _ _ => true
  | .badKind _ | .claim _ | .release _ | .notices _ | .status _ | .restart _ => true
  | .markOut _ | .setMarkerOut _ | .pulseEnd _ => true

end Sys2Proof
end

