-- ==== Sys2Proof/Tests/Slice0.lean ====
section
/-!
SUPPORT. Tests: the check of well-formedness, the manual's worked examples by one command each, request bytes written out from 11.3,
and for every statement with hypotheses a state and operands that meet them (`witness_…`).
-/

open Sys2Proof
open Sys2Proof.Machine

namespace Sys2Proof.Tests

set_option Elab.async false

/-! ### Helpers -/

/-- The next state of an outcome. -/
def got : Host.Outcome State Fault Refusal → State
  | .next t => t
  | .fault _ => State.reset
  | .refused _ => State.reset

/-- The router after reset with C0 LIVE and holding the claim. -/
def live : State :=
  { State.reset with
    ports := State.reset.ports.set .c0 (ConsumerPort.initial .live true)
    shared := { State.reset.shared with holder := some .c0 } }

/-- A state with one request under tag 5 at the head of C0's queue. -/
def ask (s : State) (r : Request) : State := s.setPort .c0 { s.port .c0 with requests := [r.frame 5] }

/-- The response on C0's link. -/
def sent (s : State) : Option (ResponseCode × Bool × Bool × ResponseData) :=
  match (s.port .c0).outbound with
  | some (.response x) => some (x.code, x.merged, x.overflow, x.data)
  | _ => none

def withMotion (f : MotionUnit → MotionUnit) (s : State) : State := s.withMu (f s.mu)
def withRepeat (f : RepeatUnit → RepeatUnit) (s : State) : State := s.withRu (f s.ru)
def withLane (k : Lane) (f : LaneFrontEnd → LaneFrontEnd) (s : State) : State := s.setLane k (f (s.lane k))

/-! ### Well-formedness and words -/

/-- A line frame without samples is ill-formed (3.5). -/
theorem test_empty_line_refused : Instr.wellFormed (.lineArrival .l0 (.good [])) = false := by decide
theorem test_line_wellFormed : Instr.wellFormed (.lineArrival .l0 (.good [5])) = true := by decide

/-- No row of the table gives bits. -/
theorem test_no_word : decodeTableWord 8 1 = none := rfl

/-! ### Requests from their bytes (11.1, 11.3)

The check fields were computed with an independent implementation of the cyclic check of 11.1. -/

/-- GRANT of 5 under tag 7. -/
theorem test_grant_frame :
    judgeFrame [1, 12, 0, 0, 0, 20, 7, 5, 103, 220, 44, 74] = some { kind := 20, tag := 7, fields := [5] } := by decide +kernel
/-- CLAIM under tag 3, and the same frame with one bit of its check changed. -/
theorem test_claim_frame : judgeFrame [1, 11, 0, 0, 0, 24, 3, 234, 237, 206, 74] = some { kind := 24, tag := 3, fields := [] } := by
  decide +kernel
theorem test_bad_check : judgeFrame [1, 11, 0, 0, 0, 24, 3, 235, 237, 206, 74] = none := by decide +kernel

/-- SET_MOTION with N 100, D 423, invert off, spacing 1000 (3 × 256 + 232), stop time 200. -/
theorem test_read_setMotion : readRequest .setMotion [100, 0, 167, 1, 0, 232, 3, 0, 0, 200, 0]
    = some (.setMotion { n := 100, d := 423, invert := false, spacing := 1000, stopTime := 200 }) := by decide +kernel
/-- SET_REPEAT with 1000.75 lines (256192 = 0x3E8C0), tracking on, falling, M 100, Wc 20, Cmax 4, Qacq 2, Kmiss 3. -/
theorem test_read_setRepeat : readRequest .setRepeat [0xC0, 0xE8, 3, 0, 1, 1, 100, 0, 0, 0, 20, 0, 4, 2, 3]
    = some (.setRepeat { length := 256192, tracking := true, edge := .falling, m := 100, wc := 20, cmax := 4, qacq := 2, kmiss := 3 }) := by
  decide +kernel
/-- SET_LANE of L3: RUN, RAMP, width 4096, base 12288, offset 362, fill 9, flat 2048, correction on. -/
theorem test_read_setLane : readRequest .setLane [3, 1, 1, 0, 16, 0, 48, 106, 1, 9, 0, 8, 1]
    = some (.setLane { lane := 3, mode := .active .run, source := .ramp, width := 4096, base := 12288, offset := 362, fill := 9,
                       flat := 2048, correction := true }) := by decide +kernel
/-- PAGE_FILL of one entry, dark 200 and gain 5000; and with a count of 2 for one entry's bytes. -/
theorem test_read_pageFill : readRequest .pageFill [1, 200, 0, 136, 19] = some (.pageFill [{ dark := 200, gain := 5000 }]) := by decide +kernel
theorem test_read_pageFill_short : readRequest .pageFill [2, 200, 0, 136, 19] = none := by decide +kernel
/-- LEVEL_START with reference 0, threshold 128, span 5000, apply yes, lanes 0 (probe 40) and 3 (probe 300). -/
theorem test_read_levelStart : readRequest .levelStart [0, 128, 0, 136, 19, 0, 0, 1, 2, 0, 40, 0, 3, 44, 1]
    = some (.levelStart { reference := 0, threshold := 128, span := 5000, apply := true, lanes := [(0, 40), (3, 300)] }) := by
  decide +kernel
/-- WINDOW_OPEN of columns 10000 to 10199, lines 200 to 219, stride 4, phase 2, ESSENTIAL, lanes 2 and 3 (7.9, window 1). -/
theorem test_read_windowOpen : readRequest .windowOpen
      [16, 39, 0, 0, 215, 39, 0, 0, 200, 0, 0, 0, 1, 219, 0, 0, 0, 4, 0, 2, 0, 0, 1, 2, 2, 3]
    = some (.windowOpen { c0 := 10000, c1 := 10199, l0 := 200, l1 := some 219, stride := 4, phase := 2, cls := .essential,
                          lanes := some [2, 3] }) := by decide +kernel
/-- SET_STORE with reserve 128, stall timeout 100, no standby; and a standby byte that names no port. -/
theorem test_read_setStore : readRequest .setStore [128, 0, 100, 0, 255]
    = some (.setStore { reserve := 128, stallTimeout := 100, standby := none }) := by decide +kernel
theorem test_read_setStore_refused : readRequest .setStore [128, 0, 100, 0, 4] = none := by decide +kernel
/-- MARK_OUT of MK0, RN 412, IRL 730, width 500 (9.9). -/
theorem test_read_markOut : readRequest .markOut [0, 156, 1, 0, 0, 218, 2, 0, 0, 244, 1, 0, 0]
    = some (.markOut { output := .mk0, rn := 412, irl := 730, width := 500 }) := by decide +kernel
/-- NOTICES, SET of COMMIT and CLAIM. -/
theorem test_read_notices : readRequest .notices [0, 2, 10, 12] = some (.notices true [.commit, .claim]) := by decide +kernel

/-! ### Motion Unit (1.3 to 1.6) -/

/-- The ratio of the worked example of 1.3. -/
def printing (acc owed : Nat) : State :=
  withMotion (fun m => { m with settings := { m.settings with n := 100, d := 423 }, acc := acc, owed := owed }) live

/-- The fifth forward count of 1.3: 400 + 100 − 423 = 77, a due line. -/
theorem test_divider_due_line : let t := got (exec (.encoderCount ⟨true, false⟩) (printing 400 0))
    t.mu.acc = 77 ∧ t.mu.wln = 1 ∧ t.mu.motion = .moving := by decide +kernel
/-- The reverse count of 1.4: 54 − 100 + 423 = 377, one line owed, no due line. -/
theorem test_reverse_owes : let t := got (exec (.encoderCount ⟨false, true⟩) (printing 54 0))
    t.mu.acc = 377 ∧ t.mu.owed = 1 ∧ t.mu.wln = 0 := by decide +kernel
/-- An overspeed due line of 1.6: the gate is closed, the line is skipped and still counted. -/
theorem test_overspeed : let t := got (exec (.encoderCount ⟨true, false⟩) (withMotion (fun m => { m with gate := some 1000, wln := 1001 }) live))
    t.mu.wln = 1002 ∧ t.mu.skipped = 1 ∧ t.mu.gate = some 1000 := by decide +kernel
/-- The speed estimate of 1.9's unit: 12500 due lines in 100 ms are 125000 lines per second. -/
theorem test_speed : (got (exec .speedGateEnd (withMotion (fun m => { m with gateCount := 12500 }) live))).mu.speed = 125000 := by
  decide +kernel
/-- A stop: STOPPED, the timer cleared. -/
theorem test_stop : let t := got (exec .stopTimerExpiry (withMotion (fun m => { m with motion := .moving, stopTimer := some 700 }) live))
    t.mu.motion = .stopped ∧ t.mu.stopTimer = none ∧ t.now = 700 := by decide +kernel
/-- SET_MOTION with N above D is answered RANGE. -/
theorem test_setMotion_range :
    sent (got (exec (.setMotion .c0) (ask live (.setMotion { n := 5, d := 4, invert := false, spacing := 1000, stopTime := 200 }))))
      = some (.range, false, false, .nothing) := by decide +kernel
/-- Power-on: the speed gate begins at the moment of the reset. -/
theorem test_powerOn : (got (exec (.powerOn ⟨true, true⟩) (live.withNow 7))).mu.speedGateEnd = 10000007 := by decide +kernel

/-! ### Repeat Unit (2.3 to 2.8) -/

/-- The settings of the worked examples of chapter 2. -/
def tracked : RepeatSettings :=
  { length := 256192, tracking := true, edge := .rising, m := 100, wc := 20, cmax := 4, qacq := 2, kmiss := 3 }

/-- RN 0 closes at line 1001 with 64 phase units carried (2.3). -/
theorem test_repeat_closes : let t := repeatDueLine 1001 (withRepeat (fun u => { u with settings := { tracked with tracking := false }, phase := 256000 }) live)
    t.ru.phase = 64 ∧ t.ru.newest.rn = 1 ∧ t.ru.newest.start = 1001 ∧ t.ru.older.map (·.length) = [some 1001] := by decide +kernel
/-- With S = +3 the line at phase 257088 opens the next repeat with 128 carried (2.4). -/
theorem test_stretch : (repeatDueLine 1004 (withRepeat (fun u => { u with settings := tracked, lock := .locked, phase := 256832, stretch := 3, accepted := true }) live)).ru.phase
    = 128 := by decide +kernel
/-- A mark at IRL 94 is clamped to S = −4 (2.4). -/
theorem test_mark_clamped : (got (exec (.markEdge .rising)
    (withMotion (fun m => { m with wln := 94 }) (withRepeat (fun u => { u with settings := tracked, lock := .locked }) live)))).ru.stretch = -4 := by
  decide +kernel
/-- The second mark of 2.5's example acquires: LOCKED with an ACQUISITION restart. -/
theorem test_acquisition : let t := got (exec (.markEdge .rising)
    (withMotion (fun m => { m with wln := 41351 })
      (withRepeat (fun u => { u with settings := tracked, lock := .hunt, chain := some { length := 1, last := 40350 } }) live)))
    t.ru.lock = .locked ∧ t.ru.restart = some .acquisition ∧ t.ru.chain = none := by decide +kernel
/-- RN 8 of that example after its second mark. -/
def acquired : State :=
  withRepeat (fun u => { u with settings := tracked, lock := .locked, restart := some .acquisition, phase := 64 + 256 * 550, newest := { u.newest with rn := 8, start := 40801 } }) live

/-- The due line after it closes RN 8 with length 551 and opens RN 9 at IRL 101 and phase 25856 (2.5). -/
theorem test_acquisition_restart : let t := repeatDueLine 41352 acquired
    t.ru.older.map (·.length) = [some 551] ∧ t.ru.newest.rn = 9 ∧ t.ru.newest.firstIrl = 101 ∧ t.ru.phase = 25856
      ∧ t.ru.newest.markIrl = some 100 := by decide +kernel
/-- A chain more than 1000 + 20 lines old expires. -/
theorem test_chain_expiry : (got (exec .chainExpiry (withMotion (fun m => { m with wln := 41371 })
    (withRepeat (fun u => { u with settings := tracked, lock := .hunt, chain := some { length := 1, last := 40350 } }) live)))).ru.chain = none := by
  decide +kernel

/-- The log of 2.3's example after WLN 4003. -/
def logged : State :=
  let e : LogEntry := State.reset.ru.newest
  withRepeat (fun u => { u with
    older := [{ e with length := some 1001 }, { e with rn := 1, start := 1001, length := some 1001 },
              { e with rn := 2, start := 2002, length := some 1001 }, { e with rn := 3, start := 3003, length := some 1000 }]
    newest := { e with rn := 4, start := 4003 } }) (withMotion (fun m => { m with wln := 4003 }) live)

/-- Stamp 2500 is RN 2, IRL 498 (2.8). -/
theorem test_lookup : (logged.ru.lookup 2500).map (fun e => (e.rn, e.irlOf 2500)) = some (2, 498) := by decide +kernel
/-- RN 5 is not in the log (2.8). -/
theorem test_query_unknown : logged.ru.query 5 = none := by decide +kernel
/-- SNAPSHOT at WLN 4003: IRL 0 of RN 4. -/
theorem test_snapshot : (match sent (got (exec (.snapshot .c0) (ask logged .snapshot))) with
    | some (.done, _, _, .snapshot r) => (r.wln, r.rn, r.irl)
    | _ => (0, 0, 9)) = (4003, 4, 0) := by decide +kernel
/-- LOG answers with the five entries, 131 bytes of records. -/
theorem test_log : (match sent (got (exec (.log .c0) (ask logged .log))) with
    | some (.done, _, _, .log es) => (logBytes es).length
    | _ => 0) = 131 := by decide +kernel

/-! ### Lanes (chapter 3) -/

/-- L5 in RUN with four unanswered triggers (3.5). -/
def behind : State := withLane .l5 (fun l => { l with state := .active .run, fifo := [⟨501, 0, .run⟩, ⟨502, 0, .run⟩, ⟨503, 0, .run⟩, ⟨504, 0, .run⟩] }) live

/-- The fifth trigger makes the oldest a missing line and counts one no-response (3.5). -/
theorem test_fifo_overflow : let t := handleTrigger .l5 505 behind
    ((t.lane .l5).fifo.map (·.wln), (t.lane .l5).counters.noResponse) = ([502, 503, 504, 505], 1) := by decide +kernel
/-- A line with an empty FIFO is unsolicited. -/
theorem test_unsolicited : ((got (exec (.lineArrival .l5 (.good [5])) live)).lane .l5).counters.unsolicited = 1 := by decide +kernel
/-- The pre-roll: with offset 150 the trigger of WLN 149 has stamp −1 and is STALE (3.6). -/
theorem test_preroll_stale : ((got (exec (.lineArrival .l2 (.good [5]))
    (withLane .l2 (fun l => { l with state := .active .run, fifo := [⟨149, 150, .run⟩] }) live))).lane .l2).counters.stale = 1 := by decide +kernel
def noCounts : LaneCounters := (State.reset.lane .l1).counters
/-- The third clean line brings the checker IN_STEP with the next base expected (3.7). -/
theorem test_checker : let t := checkCaptured 512 ((List.range 512).map fun i => BitVec.ofNat 12 (102 + i)) ⟨false, 2, 0⟩ noCounts
    (t.1.inStep, t.1.expected) = (true, 103) := by decide +kernel
/-- The pattern restarted: 512 mismatches send the checker to HUNTING (3.7, line 7). -/
theorem test_checker_lost : let t := checkCaptured 512 ((List.range 512).map (BitVec.ofNat 12)) ⟨true, 3, 106⟩ { noCounts with checkError := 3 }
    (t.1.inStep, t.2.checkError, t.2.outOfStep) = (false, 515, 1) := by decide +kernel
/-- Link loss from RUN goes to FAULT, link return back to RUN. -/
theorem test_link_loss : ((got (exec (.laneLinkLoss .l5) behind)).lane .l5).state = .fault .run := by decide +kernel
theorem test_link_return : ((got (exec (.laneLinkReturn .l5) (withLane .l5 (fun l => { l with state := .fault .run, linkUp := false }) live))).lane .l5).state
    = .active .run := by decide +kernel
/-- LANE_INFO of lane 8 is answered RANGE. -/
theorem test_laneInfo_range : sent (got (exec (.laneInfo .c0) (ask live (.laneInfo 8)))) = some (.range, false, false, .nothing) := by decide +kernel

/-! ### Correction Block (chapter 4) -/

/-- The five worked cases of 4.3. -/
theorem test_correction : (correctSample ⟨200, 5000⟩ 3000, correctSample ⟨0, 4096⟩ 2048, correctSample ⟨0, 16383⟩ 4095, correctSample ⟨200, 5000⟩ 100,
    correctSample ⟨40, 4096⟩ 1000) = (214, 128, 255, 0, 60) := by decide +kernel
/-- The same samples with correction off (4.3). -/
theorem test_uncorrected : [3000, 2048, 4095, 100, 1000].map narrowSample = [187, 128, 255, 6, 62] := by decide +kernel
/-- The PAGE_FILL of six at pointer 254 (4.4): pointer 255, flag set, OVERFLOW. -/
theorem test_page_fill_end : let t := got (exec (.pageFill .c0) (ask (live.withCb { live.cb with pointer := 254 }) (.pageFill (List.replicate 6 ⟨1, 2⟩))))
    (t.cb.pointer, t.cb.endWritten, sent t) = (255, true, some (.done, false, true, .nothing)) := by decide +kernel
/-- PAGE_SEEK to 256 is answered RANGE. -/
theorem test_pageSeek_range : sent (got (exec (.pageSeek .c0) (ask live (.pageSeek 256)))) = some (.range, false, false, .nothing) := by decide +kernel
/-- PAGE_COMMIT to page 3 of an OFF lane puts staging entry 32 at entry 800 (4.5). -/
theorem test_pageCommit : correctionAt ((got (exec (.pageCommit .c0)
    (ask (live.withCb { live.cb with staging := [(32, ⟨7, 8⟩)] }) (.pageCommit 4 3)))).cb.tables.get .l4) 800 = ⟨7, 8⟩ := by decide +kernel
/-- TABLE_READ of entry 8192 is answered RANGE; PAGE_CLEAR puts the pointer at 0. -/
theorem test_tableRead_range : sent (got (exec (.tableRead .c0) (ask live (.tableRead 0 8192)))) = some (.range, false, false, .nothing) := by decide +kernel
theorem test_pageClear : (got (exec (.pageClear .c0) (ask (live.withCb { live.cb with pointer := 9 }) .pageClear))).cb.pointer = 0 := by decide +kernel

/-! ### Leveling Engine (chapter 5) -/

/-- The search of 5.7 with its three edges taken. -/
def skew : Search :=
  let r := fun e => (some { probe := 9, status := .edge, previous := none, edge := some e } : Option SearchRecord)
  { request := { reference := .l0, threshold := 128, span := 5000, apply := true }, port := .c0, start := 874900
    records := ((((PerLane.all none).set .l0 (r ⟨875000, 0⟩)).set .l3 (r ⟨875212, 150⟩)).set .l5 (r ⟨875150, 4000⟩)).set .l6
      (some { probe := 9, status := .notRunning, previous := none, edge := none }) }

/-- The results of 5.7: L3 is FOUND at 362, L5 OUT_OF_RANGE, L6 NOT_RUNNING; L3's pending offset is staged. -/
theorem test_leveling : let t := endSearch skew .edges 879150 live
    ((t.lane .l3).pendingOffset, (t.lane .l5).pendingOffset, (match t.le with
      | .done f => [f.results.l0, f.results.l3, f.results.l5, f.results.l6].map (fun r => r.map (fun r => (r.status, r.newOffset)))
      | _ => [])) = (some 362, none, [some (.found, some 0), some (.found, some 362), some (.outOfRange, none), some (.notRunning, none)]) := by
  decide +kernel
/-- A rise through the threshold is an edge (5.7). -/
theorem test_edge : (examine 128 875212 150 (some 210) { probe := 9, status := .waiting, previous := some 40, edge := none }).edge = some ⟨875212, 150⟩ := by
  decide +kernel
/-- LEVEL_ABORT with no search is answered STATE. -/
theorem test_levelAbort_state : sent (got (exec (.levelAbort .c0) (ask live .levelAbort))) = some (.state, false, false, .nothing) := by decide +kernel

/-! ### Band Store Controller and Window Matcher (chapters 6 and 7) -/

/-- The band of 7.9. -/
def sealedBand : Band :=
  { lane := .l2, rn := 86, block := 3, startIrl := 192, lastIrl := 255, presence := [(192, 4096)], startStamp := 9, width := 4096, base := 8192
    partialStart := false, test := false, overrun := false
    sealing := some { fill := 0, stopSealed := false, irregular := false, lock := .off, sequence := 7, holders := 0 } }

/-- An ESSENTIAL window of C0 on every lane, every column and every line. -/
def wide : Window :=
  { owner := .c0, origin := .c0, adopted := false, lanes := none, c0 := 0, c1 := 65535, l0 := 0, l1 := none, stride := 1, phase := 0
    cls := .essential, gap := false, sequence := 0, sent := 0, dropped := 0, closing := none }

/-- Windows 1, 2 and 9 of 7.9: two entries with their clips; the repeat of window 2 is not wanted. -/
theorem test_matching : let t := matchBand 1207 sealedBand (live.withWindows [
      (1, { wide with lanes := some (laneSetOf [2, 3]), c0 := 10000, c1 := 10199, l0 := 200, l1 := some 219, stride := 4, phase := 2 }),
      (2, { wide with lanes := some (laneSetOf [2]), c0 := 12000, c1 := 14000, l0 := 250, l1 := some 300, stride := 4, phase := 3 }),
      (9, { wide with c0 := 12287, c1 := 20000, l0 := 250, l1 := some 260 })])
    (t.2, (t.1.port .c0).essential.map fun e => (e.window, e.firstIrl, e.lines, e.firstColumn, e.columns))
      = (2, [(1, 200, 20, 10000, 200), (9, 250, 6, 12287, 1)]) := by decide +kernel
/-- A match of a STALLED owner is lost: GAP pending and one drop (7.9, window 6). -/
theorem test_match_lost : let t := matchBand 1207 sealedBand ((live.setPort .c0 { live.port .c0 with state := .stalled }).withWindows [(6, wide)])
    (t.2, (t.1.window 6).map (fun w => (w.gap, w.dropped)), (t.1.port .c0).dropped) = (0, some (true, 1), 1) := by decide +kernel
/-- A short line of two samples in a band of width 4: the samples, then fill (R97). -/
theorem test_short_line : let t := place { lane := .l4, samples := some [11, 12], stamp := 50064, rn := 5, irl := 64, firstIrl := 0, width := 4, base := 0, camera := true } live
    (t.band 0).map (fun b => (List.range 4).map (bandContent t.dram 0 b 9 64)) = some [11, 12, 9, 9] := by decide +kernel
/-- PRESSURE is entered where the free count falls to the reserve of 128 (6.13). -/
theorem test_pressure : (judgePressure (live.withBsc { live.bsc with free := List.range 128 })).bsc.pressure = true := by decide +kernel
/-- WINDOW_OPEN gives the lowest id; a line range that is reversed is answered RANGE. -/
def every : WindowFields := { c0 := 0, c1 := 65535, l0 := 0, l1 := none, stride := 1, phase := 0, cls := .essential, lanes := none }
theorem test_windowOpen : sent (got (exec (.windowOpen .c0) (ask live (.windowOpen every)))) = some (.done, false, false, .windowId 0) := by decide +kernel
theorem test_windowOpen_range : sent (got (exec (.windowOpen .c0) (ask live (.windowOpen { every with l0 := 9, l1 := some 8 }))))
    = some (.range, false, false, .nothing) := by decide +kernel
theorem test_windowClose : (got (exec (.windowClose .c0) (ask (live.withWindows [(3, wide)]) (.windowClose 3)))).windows = [] := by decide +kernel
theorem test_windowReturn_state : sent (got (exec (.windowReturn .c0) (ask (live.withWindows [(3, wide)]) (.windowReturn 3))))
    = some (.state, false, false, .nothing) := by decide +kernel
theorem test_windowInfo_unknown : sent (got (exec (.windowInfo .c0) (ask live (.windowInfo 3)))) = some (.unknown, false, false, .nothing) := by decide +kernel

/-! ### Consumer Ports (chapters 8 and 10) -/

/-- GRANT of 2 at credit 0 answers the new credit 2 (8.5). -/
theorem test_grant : sent (got (exec (.grant .c0) (ask live (.grant 2)))) = some (.done, false, false, .credit 2) := by decide +kernel
theorem test_grant_capped : ((got (exec (.grant .c0) (ask (live.setPort .c0 { live.port .c0 with credit := 60 }) (.grant 64)))).port .c0).credit = 64 := by
  decide +kernel
/-- SET_STORE with a stall timeout of 0 is answered RANGE. -/
theorem test_setStore_range : sent (got (exec (.setStore .c0) (ask live (.setStore { reserve := 0, stallTimeout := 0, standby := none }))))
    = some (.range, false, false, .nothing) := by decide +kernel

/-- C0 with a strip's entry queued for the sealed band in slot 0, credit 0, and its stall timer running. -/
def queued : State :=
  let e : Entry := { slot := 0, window := 3, firstIrl := 192, lines := 64, firstColumn := 8192, columns := 4096, cls := .essential }
  let b := { sealedBand with sealing := sealedBand.sealing.map fun r => { r with holders := 1 } }
  ((live.withWindows [(3, { wide with sequence := 57, gap := true })]).withBsc
    { live.bsc with bands := [(0, b)], free := List.range' 1 4095 }).setPort .c0
      { live.port .c0 with essential := [e], stall := some 10000000 }

/-- C0 sending its strip of slot 0, begun with its last credit. -/
def sending : State :=
  (got (exec (.frameCompletion .c0) (queued.setPort .c0 { queued.port .c0 with credit := 1, stall := none, outbound := some (.notice 0) })))

/-- The strip begin after a notice completes (8.5): credit 0, sequence 57 with GAP in the header, then 58 and GAP clear. -/
theorem test_strip_begin : ((sending.port .c0).credit, (match (sending.port .c0).outbound with
      | some (.strip _ h) => some (h.sequence, h.gap)
      | _ => none), (sending.window 3).map fun w => (w.sequence, w.gap)) = (0, some (57, true), some (58, false)) := by decide +kernel
/-- Its completion frees the slot. -/
theorem test_strip_end : let t := got (exec (.stripCompletion .c0) sending)
    (t.bsc.bands.length, t.bsc.free.length, (t.port .c0).outbound) = (0, 4096, none) := by decide +kernel
/-- The stall of a port without a standby: the entry is lost, the window keeps its owner with GAP pending (R147). -/
theorem test_stall : let t := got (exec (.stallTimerExpiry .c0) queued)
    ((t.port .c0).state, (t.port .c0).essential, (t.port .c0).dropped, (t.window 3).map (·.gap)) = (.stalled, [], 1, some true) := by decide +kernel
/-- A link loss without a standby closes the window and ends the claim (R147, R174). -/
theorem test_steering_loss : let t := got (exec (.steeringLinkLoss .c0) queued)
    (t.windows, t.shared.holder, (t.port .c0).state) = ([], none, .down) := by decide +kernel
theorem test_steering_up : ((got (exec (.steeringLinkUp .c1) live)).port .c1).state = .live := by decide +kernel
/-- A frame that arrives is queued. -/
theorem test_arrival : ((got (exec (.requestArrival .c0 [1, 12, 0, 0, 0, 20, 7, 5, 103, 220, 44, 74]) live)).port .c0).requests
    = [{ kind := 20, tag := 7, fields := [5] }] := by decide +kernel
theorem test_badKind : sent (got (exec (.badKind .c0) (live.setPort .c0 { live.port .c0 with requests := [⟨29, 1, [4]⟩] })))
    = some (.badKind, false, false, .nothing) := by decide +kernel
/-- CLAIM while another port holds the claim is HELD, naming the holder (10.8). -/
theorem test_claim_held : sent (got (exec (.claim .c0) (ask (live.withShared { live.shared with holder := some .c1 }) .claim)))
    = some (.held, false, false, .holder .c1) := by decide +kernel
theorem test_release : (got (exec (.release .c0) (ask live .release))).shared.holder = none := by decide +kernel
theorem test_notices : ((got (exec (.notices .c0) (ask live (.notices true [.commit, .claim])))).port .c0).mask = 0x1400 := by decide +kernel
/-- STATUS is 72 bytes of data and empties the pending set. -/
theorem test_status : let t := got (exec (.status .c0) (ask (live.setPort .c0 { live.port .c0 with pendingSet := 5 }) .status))
    ((t.port .c0).pendingSet, (match sent t with
      | some (.done, _, _, d) => d.bytes.length
      | _ => 0)) = (0, 72) := by decide +kernel
/-- RESTART is in progress until its DONE has been sent, and is then applied. -/
theorem test_restart : let t := got (exec (.restart .c0) (ask live .restart))
    (t.shared.restart, (got (exec (.frameCompletion .c0) t)).shared.holder) = (some .c0, none) := by decide +kernel

/-! ### Marker Unit (chapter 9) -/

/-- The log and outputs of 9.9 and 9.10. -/
def marking : State :=
  let o := State.reset.mku.outputs.mk0
  (withRepeat (fun u => { u with newest := { u.newest with rn := 412, start := 5000000 } })
    (withMotion (fun m => { m with wln := 5004100 }) live)).withMku
      { live.mku with outputs := { mk0 := { o with distance := 12000 }, mk1 := { o with distance := 12040, mode := .toggle } } }

/-- The target of 9.9 is 5012730. -/
theorem test_markOut : ((got (exec (.markOut .c0) (ask marking (.markOut { output := .mk0, rn := 412, irl := 730, width := 500 })))).mku.queue.map
    fun e => (e.target, e.width)) = [(5012730, 500)] := by decide +kernel
/-- A second request for it merges and keeps the greater width (9.10). -/
theorem test_markOut_merged : let q := [({ output := .mk0, target := 5012730, width := 500, requesters := (PerPort.all false).set .c2 true } : MarkerEntry)]
    let t := got (exec (.markOut .c0) (ask (marking.withMku { marking.mku with queue := q }) (.markOut { output := .mk0, rn := 412, irl := 730, width := 400 })))
    (t.mku.queue.map fun e => (e.width, e.requesters.c0, e.requesters.c2), sent t) = ([(500, true, true)], some (.done, true, false, .nothing)) := by
  decide +kernel
/-- Two firings of 9.10: MK0's pulse is extended, MK1 toggles. -/
theorem test_firing : let q := [({ output := .mk0, target := 7, width := 500, requesters := (PerPort.all false).set .c0 true } : MarkerEntry),
      { output := .mk1, target := 7, width := 100, requesters := (PerPort.all false).set .c0 true }]
    let t := markerDueLine 7 (marking.withMku { marking.mku with queue := q })
    (t.mku.outputs.mk0.pulseEnd, t.mku.outputs.mk0.active, t.mku.outputs.mk1.active, t.mku.fired.c0) = (some 50000, true, true, 2) := by decide +kernel
/-- MK0 active until a pulse end. -/
def pulsing : State :=
  let o := { marking.mku.outputs.mk0 with active := true, pulseEnd := some 81600 }
  marking.withMku { marking.mku with outputs := { marking.mku.outputs with mk0 := o } }
theorem test_pulseEnd : (got (exec (.pulseEnd .mk0) pulsing)).mku.outputs.mk0.active = false := by decide +kernel
/-- An output record with a distance. -/
def settingOf (distance : Nat) : MarkerFields := { output := .mk0, distance := distance, mode := .toggle, polarity := .activeLow }
theorem test_setMarkerOut_range : sent (got (exec (.setMarkerOut .c0) (ask marking (.setMarkerOut (settingOf 1000001))))) = some (.range, false, false, .nothing) := by decide +kernel

/-! ### Witnesses

For each statement of Certificates/Slice0/Obligations.lean that has hypotheses, states and operands that meet them, clause by clause. -/

theorem settled_of_ports {s : State} (h : s.ports = live.ports) : Settled s := by
  have port : ∀ p, s.port p = live.port p := fun p => by unfold State.port; rw [h]
  constructor
  · intro p
    rw [arbitrate_eq_self, port p]
    cases p <;> intro a b <;> exact ⟨rfl, rfl, fun e he => by cases he⟩
  · intro p; rw [port p]; cases p <;> rfl

/-- A request of C0 that may be taken, in a settled state. -/
def Asked (s : State) (r : Request) : Prop := Settled (ask s r) ∧ Taken (ask s r) .c0 (r.frame 5) []

theorem asked {s : State} {r : Request} (h : s.ports = live.ports) (n : s.shared.restart = none) : Asked s r := by
  have own : s.port .c0 = live.port .c0 := by unfold State.port; rw [h]
  have port : ∀ p, (ask s r).port p = { live.port p with requests := if p = .c0 then [r.frame 5] else [] } := by
    intro p
    unfold ask
    cases p <;> simp only [State.port, State.setPort, State.withPorts, PerPort.set, PerPort.get, h] <;> rfl
  refine ⟨⟨fun p => ?_, fun p => ?_⟩, ?_, ?_⟩
  · rw [arbitrate_eq_self, port p]
    cases p <;> intro a b <;> exact ⟨rfl, rfl, fun e he => by cases he⟩
  · rw [port p]; cases p <;> rfl
  · rw [port .c0]; rfl
  · unfold State.takesRequests
    rw [port .c0, show (ask s r).shared = s.shared from rfl, n]
    rfl

/-! #### The machine and its invariants -/

theorem witness_stepTakesFront : (live.withPending [.spanEnd]).pending = .spanEnd :: [] := rfl
theorem witness_idleTick : live.pending = [] := rfl

theorem step_live : step live = .next (live.withNow 1) := rfl
theorem step_queued : step queued = .next (queued.withNow 1) := rfl

theorem witness_stepKeepsStore : Memory.wf live.dram ∧ step live = .next (live.withNow 1) := ⟨Memory.wf_reset, rfl⟩
theorem witness_stepKeepsMotion : MotionOk (printing 400 0) ∧ step (printing 400 0) = .next ((printing 400 0).withNow 1) :=
  ⟨⟨by decide, by decide, by decide⟩, rfl⟩
/-- A repeat in LOCKED whose mark was accepted 4 lines early, at its last line but one. -/
def stretched : State :=
  withRepeat (fun u => { u with settings := tracked, lock := .locked, phase := 256 * 995, stretch := -4, accepted := true
                                newest := { u.newest with markIrl := some 96, stretch := -4 } }) (withMotion (fun m => { m with wln := 995 }) live)
theorem witness_stepKeepsLog : (LogOk logged ∧ RepeatOk logged ∧ step logged = .next (logged.withNow 1))
    ∧ (RepeatOk stretched ∧ step stretched = .next (stretched.withNow 1)) := by
  refine ⟨⟨⟨by decide, rfl, by simp [logged, withRepeat, logChained]; decide⟩, ?_, rfl⟩, ?_, rfl⟩
  · exact ⟨by decide, (fun _ h => nomatch h), by decide, by decide, by decide, by decide, rfl, rfl⟩
  · exact ⟨by decide, (fun _ h => nomatch h), by decide, by decide, by decide, by decide, rfl, rfl⟩

theorem capacityOk_live : CapacityOk live := by
  constructor
  · intro k; cases k <;> decide
  · intro k; cases k <;> decide
  · decide
  · intro p cls; cases p <;> cases cls <;> decide
  · intro p; cases p <;> decide
  · intro p; cases p <;> decide
  · intro p; cases p <;> decide
  · decide
def markEntry (target : Line) (output : Output) : MarkerEntry := { output := output, target := target, width := 1, requesters := PerPort.all true }

/-- A forward count that makes line 5004101 due, with two markers for that line and one for a later line. -/
def firing : State :=
  (marking.withMku { marking.mku with queue := [markEntry 5004101 .mk1, markEntry 5004101 .mk0, markEntry 5012730 .mk0] }).withPending
    [.encoderCount ⟨true, false⟩]
/-- A lane at the bounds of its ranges, in force and pending, with a FIFO. -/
def bounded : State :=
  withLane .l5 (fun l => { l with width := 8192, base := 57344, offset := 4095, pendingOffset := some 4095, pendingWidth := some (512, 65024)
                                  fifo := [⟨501, 4095, .run⟩] }) live
theorem lanesOk_bounded : LanesOk bounded := by
  constructor
  · intro k; cases k <;> decide
  · intro k item h; cases k <;> cases h; decide
  · intro k; cases k <;> decide
  · intro k o h; cases k <;> cases h; decide
  · intro k; cases k <;> decide
  · exact fun _ _ _ _ h => nomatch h
theorem witness_stepKeepsCapacities : (CapacityOk live ∧ step live = .next (live.withNow 1))
    ∧ (LanesOk bounded ∧ step bounded = .next (bounded.withNow 1))
    ∧ (MarkersOk firing ∧ step firing = .next (got (step firing)) ∧ (got (step firing)).mku.queue = [markEntry 5012730 .mk0]) := by
  refine ⟨⟨capacityOk_live, rfl⟩, ⟨lanesOk_bounded, rfl⟩, ⟨by decide, by decide, by decide, fun e he => ?_⟩, rfl, by decide +kernel⟩
  have he : e ∈ [markEntry 5004101 .mk1, markEntry 5004101 .mk0, markEntry 5012730 .mk0] := he
  simp only [List.mem_cons, List.not_mem_nil, or_false] at he
  rcases he with rfl | rfl | rfl <;> exact ⟨by decide, by decide, .c0, rfl⟩

theorem queued_band (slot : Nat) : queued.band slot = if slot = 0 then queued.band 0 else none := by
  by_cases h : slot = 0
  · simp [h]
  · simp [h, State.band, queued, tableGet, eq_comm]
theorem slotsOk_queued : SlotsOk queued := by
  constructor
  · simp [tableSorted, queued]
  · show (List.range' 1 4095 ++ [0]).Perm (List.range 4096)
    rw [List.range_eq_range', show List.range' 0 4096 = 0 :: List.range' 1 4095 from rfl]
    exact List.perm_append_comm
  · intro k slot
    constructor
    · intro h; cases k <;> cases h
    · rintro ⟨b, hb, _, hs⟩
      rw [queued_band] at hb
      split at hb
      · cases hb; cases hs
      · cases hb
/-- The pressure invariant reads the store alone. -/
theorem pressureOk_same {s t : State} (h : PressureOk s) (e : t.bsc = s.bsc) : PressureOk t := ⟨e ▸ h.entered, e ▸ h.left⟩
theorem pressureOk_live : PressureOk live := ⟨by decide, fun _ => by decide +kernel⟩
theorem pressureOk_queued : PressureOk queued := ⟨by decide, fun _ => by decide +kernel⟩
/-- A store under pressure, at the bound above which it is left. -/
def pressed : State := queued.withBsc { queued.bsc with free := List.range' 1 160, pressure := true }
theorem pressureOk_pressed : PressureOk pressed := ⟨fun _ => by decide +kernel, by decide⟩
theorem witness_stepKeepsSlots : (SlotsOk queued ∧ PressureOk queued ∧ step queued = .next (queued.withNow 1))
    ∧ (PressureOk pressed ∧ step pressed = .next (pressed.withNow 1)) :=
  ⟨⟨slotsOk_queued, pressureOk_queued, rfl⟩, pressureOk_pressed, rfl⟩

theorem portsOk_queued : PortsOk queued := by
  constructor
  · intro p; cases p <;> decide
  · intro p; cases p <;> decide
  · intro p; cases p <;> decide
  · intro p; cases p <;> decide
theorem witness_stepKeepsPorts : PortsOk queued ∧ step queued = .next (queued.withNow 1) := ⟨portsOk_queued, rfl⟩

theorem holdersOk_queued : HoldersOk queued := by
  constructor
  · intro slot b r hb hr
    rw [queued_band] at hb
    split at hb
    next h => subst h; cases hb; cases hr; decide
    · cases hb
  · intro slot b hb hr
    rw [queued_band] at hb
    split at hb
    · cases hb; cases hr
    · cases hb
  · intro slot hb
    by_cases h : slot = 0
    · subst h; cases hb
    · have : (0 : Nat) ≠ slot := fun e => h e.symm
      simp [State.naming, allPorts, queued, ConsumerPort.entries, State.port, State.setPort, PerPort.set, PerPort.get, live, State.reset,
        PerPort.all, ConsumerPort.initial, State.withPorts, State.withBsc, State.withWindows, this]
theorem witness_stepKeepsHolders : SlotsOk queued ∧ PortsOk queued ∧ HoldersOk queued ∧ step queued = .next (queued.withNow 1) :=
  ⟨slotsOk_queued, portsOk_queued, holdersOk_queued, rfl⟩

theorem queued_window (id : Nat) : queued.window id = if id = 3 then queued.window 3 else none := by
  by_cases h : id = 3
  · simp [h]
  · have : (3 : Nat) ≠ id := fun e => h e.symm
    simp [h, State.window, queued, tableGet, this]
theorem windowsOk_queued : WindowsOk queued := by
  have only : ∀ id w, queued.window id = some w → id = 3 ∧ queued.window 3 = some w := by
    intro id w h
    rw [queued_window] at h
    split at h
    next e => exact ⟨e, h⟩
    · cases h
  constructor
  · simp [tableSorted, queued]
  · intro id w h; rw [(only id w h).1]; decide
  · intro p cls e he
    cases p <;> cases cls <;> cases he
    · exact ⟨rfl, _, rfl, rfl, rfl⟩
    · rename_i h; cases h
  · intro p id h; cases p <;> cases h
  · intro id w n h hn; obtain ⟨_, h⟩ := only id w h; cases h; cases hn
  · intro id w h _; obtain ⟨_, h⟩ := only id w h; cases h; rfl
  · intro id w h; obtain ⟨_, h⟩ := only id w h; cases h; decide
theorem witness_stepKeepsWindows : PortsOk queued ∧ WindowsOk queued ∧ step queued = .next (queued.withNow 1) :=
  ⟨portsOk_queued, windowsOk_queued, rfl⟩

theorem settled_queued : Settled queued := by
  constructor
  · intro p; cases p <;> rfl
  · intro p; cases p <;> rfl
theorem witness_stepKeepsSettled : Settled queued ∧ step queued = .next (queued.withNow 1) := ⟨settled_queued, rfl⟩

/-! #### Requests and frames -/

theorem witness_requestFieldsRoundTrip : (Request.grant 255).fits := by simp [Request.fits]
theorem witness_requestFrameRoundTrip : ({ kind := 20, tag := 7, fields := [5] } : RequestFrame).fields.length + 11 < 4294967296 := by decide

/-! #### Motion Unit -/

/-- Clause by clause: no line step at A + N = D − 1; a pay-off at A + N = D; a due line. -/
theorem witness_forwardCount :
    (let s := printing 322 0;
      Settled s ∧ ForwardMove s ⟨true, false⟩ ∧ s.mu.acc + s.mu.settings.n < s.mu.settings.d)
    ∧ (let s := printing 323 1;
      Settled s ∧ ForwardMove s ⟨true, false⟩ ∧ s.mu.settings.d ≤ s.mu.acc + s.mu.settings.n ∧ 0 < s.mu.owed)
    ∧ (let s := printing 323 0;
      Settled s ∧ ForwardMove s ⟨true, false⟩ ∧ s.mu.settings.d ≤ s.mu.acc + s.mu.settings.n ∧ s.mu.owed = 0) :=
  ⟨⟨settled_of_ports rfl, rfl, by decide⟩, ⟨settled_of_ports rfl, rfl, by decide, by decide⟩, ⟨settled_of_ports rfl, rfl, by decide, rfl⟩⟩

/-- Clause by clause: A = N; the owed count at 4094; a reverse overrun at 4095. -/
theorem witness_reverseCount :
    (let s := printing 100 0;
      Settled s ∧ ReverseMove s ⟨false, true⟩ ∧ s.mu.settings.n ≤ s.mu.acc)
    ∧ (let s := printing 99 4094;
      Settled s ∧ ReverseMove s ⟨false, true⟩ ∧ s.mu.acc < s.mu.settings.n ∧ s.mu.owed < 4095)
    ∧ (let s := printing 99 4095;
      Settled s ∧ ReverseMove s ⟨false, true⟩ ∧ s.mu.acc < s.mu.settings.n ∧ 4095 ≤ s.mu.owed)
    ∧ (let s := withRepeat (fun u => { u with lock := .coast }) (printing 99 4095);
      Settled s ∧ ReverseMove s ⟨false, true⟩ ∧ s.mu.acc < s.mu.settings.n ∧ 4095 ≤ s.mu.owed ∧ s.ru.lock = .coast) :=
  ⟨⟨settled_of_ports rfl, rfl, by decide⟩, ⟨settled_of_ports rfl, rfl, by decide, by decide⟩, ⟨settled_of_ports rfl, rfl, by decide, by decide⟩,
    ⟨settled_of_ports rfl, rfl, by decide, by decide, rfl⟩⟩

/-- A busy link, with ENCODER pending, masked off, enabled with no notice frame waiting and with one. -/
theorem witness_encoderError :
    let s := fun (pending mask : NoticeSet) (notice : Option NoticeSet) =>
      live.setPort .c0 { live.port .c0 with outbound := some (.notice 1), pendingSet := pending, mask := mask, notice := notice };
    (∀ pending mask notice, Settled (s pending mask notice) ∧ ((s pending mask notice).port .c0).isUp = true
      ∧ ((s pending mask notice).port .c0).outbound.isSome = true)
    ∧ NoticeSet.has ((s 64 0 none).port .c0).pendingSet .encoder = true
    ∧ (NoticeSet.has ((s 0 0 none).port .c0).pendingSet .encoder = false ∧ NoticeSet.has ((s 0 0 none).port .c0).mask .encoder = false)
    ∧ (NoticeSet.has ((s 0 64 (some 1)).port .c0).mask .encoder = true ∧ ((s 0 64 (some 1)).port .c0).notice = some 1) :=
  ⟨fun _ _ _ => ⟨⟨fun p => by cases p <;> rfl, fun p => by cases p <;> rfl⟩, rfl, rfl⟩, by decide, ⟨by decide, by decide⟩, by decide, rfl⟩

theorem witness_dueLine : live.mu.motion = .stopped ∧ live.mu.gate = none ∧ (withMotion (fun m => { m with gate := some 9 }) live).mu.gate.isSome = true := ⟨rfl, rfl, rfl⟩

theorem witness_motionTimers :
    (withMotion (fun m => { m with gate := some 9 }) live).mu.gate = some 9
    ∧ (let s := withMotion (fun m => { m with stopTimer := some 7 }) queued;
      SlotsOk s ∧ s.mu.stopTimer = some 7) :=
  ⟨rfl, ⟨slotsOk_queued.sorted, slotsOk_queued.once, slotsOk_queued.filling⟩, rfl⟩

/-- A record at the bounds of its ranges, and one out of range. -/
theorem witness_setMotionTaken :
    (let r : MotionSettings := { n := 65535, d := 65535, invert := true, spacing := 100000, stopTime := 10000 };
      Asked live (.setMotion r) ∧ (Request.setMotion r).fits ∧ live.shared.holder = some .c0 ∧ r.inRange = true)
    ∧ (let r : MotionSettings := { n := 2, d := 1, invert := true, spacing := 200, stopTime := 10 };
      Asked live (.setMotion r) ∧ (Request.setMotion r).fits ∧ live.shared.holder = some .c0 ∧ r.inRange = false) :=
  ⟨⟨asked rfl rfl, by simp [Request.fits], rfl, by decide⟩, ⟨asked rfl rfl, by simp [Request.fits], rfl, by decide⟩⟩

/-! #### Repeat Unit -/

/-- Tracked states in HUNT, with and without a chain. -/
def hunting (chain : Option MarkChain) : State :=
  withMotion (fun m => { m with wln := 41351 }) (withRepeat (fun u => { u with settings := tracked, lock := .hunt, chain := chain }) live)

/-- A repeat about to be opened by phase advance, with settings in force and pending, and 15 closed entries in the log. -/
def closing (now : RepeatSettings) (pending : Option RepeatSettings) : State :=
  withRepeat (fun u => { u with settings := now, pendingSettings := pending, phase := now.length - 256,
                                older := List.replicate 15 { u.newest with length := some 1000 } }) live

/-- Below the end, with the window end passed without a mark at misses 1 and 2 of 3, and with the mark accepted; the phase that reaches
the end. At an opening: no settings pending; tracking that comes on, goes off and stays; 16 log entries; a chain expired, and not. -/
theorem witness_phaseAdvance :
    (let s := withRepeat (fun u => { u with phase := 2560000 - 257 }) live;
      s.ru.restart = none ∧ (s.ru.phase : Int) + 256 < s.ru.settings.length + 256 * s.ru.stretch)
    ∧ (let s := fun misses accepted => withRepeat (fun u => { u with settings := tracked, lock := .locked, misses := misses, accepted := accepted }) live;
      (s 0 false).ru.restart = none ∧ (s 0 false).ru.newest.firstIrl + ((121 : Line) - (s 0 false).ru.newest.start).toNat = 100 + 20 + 1
      ∧ (s 0 false).ru.misses + 1 < (s 0 false).ru.settings.kmiss ∧ (s 2 false).ru.settings.kmiss ≤ (s 2 false).ru.misses + 1
      ∧ (s 0 true).ru.accepted = true)
    ∧ (let s := withRepeat (fun u => { u with phase := 2560000 - 256 }) live;
      s.ru.restart = none ∧ s.ru.settings.length + 256 * s.ru.stretch ≤ (s.ru.phase : Int) + 256)
    ∧ (let free := { tracked with tracking := false }
      let ends := fun s : State => s.ru.restart = none ∧ s.ru.settings.length + 256 * s.ru.stretch ≤ (s.ru.phase : Int) + 256
      (ends (closing tracked none) ∧ (closing tracked none).ru.entries.length = 16)
      ∧ (ends (closing free (some tracked)) ∧ ends (closing tracked (some free)) ∧ ends (closing tracked (some tracked)))) := by decide

/-- A chain of line 40350 that is not expired at line 41370 and is at line 41371. -/
theorem witness_chainExpired : let s := hunting (some { length := 1, last := 40350 })
    ChainExpired 41371 s ∧ ¬ChainExpired 41370 s := by
  refine ⟨⟨rfl, _, rfl, by decide⟩, ?_⟩
  rintro ⟨_, c, hc, hd⟩
  cases hc
  exact absurd hd (by decide)

/-- A repeat that goes on, and one that the phase advance closes at the same due line, each with a restart pending; and either with
settings pending that turn tracking off. -/
theorem witness_restartClosesEarly :
    (acquired.ru.restart = some .acquisition ∧ acquired.ru.newest.start ≠ 41352
      ∧ (acquired.ru.phase : Int) + 256 < acquired.ru.settings.length + 256 * acquired.ru.stretch)
    ∧ (let s := withRepeat (fun u => { u with phase := 256192 - 256 }) acquired;
      s.ru.restart = some .acquisition ∧ s.ru.settings.length + 256 * s.ru.stretch ≤ (s.ru.phase : Int) + 256)
    ∧ (let s := withRepeat (fun u => { u with pendingSettings := some { tracked with tracking := false } }) acquired;
      s.ru.restart = some .acquisition ∧ s.ru.settings.tracking = true ∧ s.ru.newest.start ≠ 41352
      ∧ (s.ru.phase : Int) + 256 < s.ru.settings.length + 256 * s.ru.stretch) := by decide

/-- Clause by clause: the lock OFF; the first candidate of two; a second one 1001 lines later. -/
theorem witness_markEdgeHunt :
    (Settled live ∧ live.ru.lock = .off)
    ∧ (Settled (hunting none) ∧ (hunting none).ru.lock = .hunt ∧ (hunting none).ru.settings.edge = .rising ∧ 1 < (hunting none).ru.settings.qacq)
    ∧ (let s := hunting (some { length := 1, last := 40350 });
      Settled s ∧ s.ru.lock = .hunt
      ∧ (256 * lineDiff s.mu.wln 40350 - s.ru.settings.length).natAbs ≤ 256 * s.ru.settings.wc ∧ s.ru.settings.qacq ≤ 1 + 1) :=
  ⟨⟨settled_of_ports rfl, rfl⟩, ⟨settled_of_ports rfl, rfl, rfl, by decide⟩, ⟨settled_of_ports rfl, rfl, by decide, by decide⟩⟩

/-- A tracked state at an in-repeat line. -/
def windowAt (lock : LockState) (w : Line) : State :=
  withMotion (fun m => { m with wln := w }) (withRepeat (fun u => { u with settings := tracked, lock := lock }) live)

/-- Clause by clause: IRL 80 and 120 of the window 80 to 120; IRL 121 after it. -/
theorem witness_markEdgeWindow :
    (Settled (windowAt .coast 80) ∧ (windowAt .coast 80).ru.lock = .coast ∧ (windowAt .coast 80).currentIrl = 80)
    ∧ (Settled (windowAt .locked 120) ∧ (windowAt .locked 120).ru.lock = .locked ∧ (windowAt .locked 120).currentIrl = 120
      ∧ (windowAt .locked 120).ru.accepted = false)
    ∧ (Settled (windowAt .locked 121) ∧ (windowAt .locked 121).ru.lock = .locked ∧ (windowAt .locked 121).currentIrl = 121) :=
  ⟨⟨settled_of_ports rfl, rfl, by decide⟩, ⟨settled_of_ports rfl, rfl, by decide, rfl⟩, ⟨settled_of_ports rfl, rfl, by decide⟩⟩

/-- A chain in HUNT; an empty chain; another lock. -/
theorem witness_chainExpiryTaken :
    (let s := hunting (some { length := 1, last := 40350 }); s.ru.lock = .hunt ∧ s.ru.chain = some { length := 1, last := 40350 })
    ∧ (hunting none).ru.chain = none ∧ live.ru.lock ≠ .hunt := ⟨⟨rfl, rfl⟩, rfl, by decide⟩

/-- With tracking on the lock changes, with tracking off it stays OFF. -/
theorem witness_repeatRestartTaken :
    (Asked (windowAt .locked 9) .repeatRestart ∧ (windowAt .locked 9).shared.holder = some .c0 ∧ LockState.hunt ≠ (windowAt .locked 9).ru.lock)
    ∧ (Asked live .repeatRestart ∧ live.shared.holder = some .c0 ∧ LockState.off = live.ru.lock) :=
  ⟨⟨asked rfl rfl, rfl, by decide⟩, ⟨asked rfl rfl, rfl, rfl⟩⟩

theorem witness_setRepeatTaken :
    (Asked live (.setRepeat tracked) ∧ (Request.setRepeat tracked).fits ∧ live.shared.holder = some .c0 ∧ tracked.inRange = true)
    ∧ (Asked live (.setRepeat { tracked with kmiss := 16 }) ∧ (Request.setRepeat { tracked with kmiss := 16 }).fits
      ∧ live.shared.holder = some .c0 ∧ ({ tracked with kmiss := 16 } : RepeatSettings).inRange = false) :=
  ⟨⟨asked rfl rfl, by simp [Request.fits, tracked], rfl, by decide⟩, ⟨asked rfl rfl, by simp [Request.fits, tracked], rfl, by decide⟩⟩

/-! #### Lanes -/

def laneRecord (lane width : Nat) : LaneFields :=
  { lane := lane, mode := .active .run, source := .camera, width := width, base := 0, offset := 4095, fill := 255, flat := 4095, correction := true }

/-- Width 8192 in range, 8256 out of range, and lane 8. -/
theorem witness_setLaneTaken :
    (Asked live (.setLane (laneRecord 7 8192)) ∧ (Request.setLane (laneRecord 7 8192)).fits ∧ live.shared.holder = some .c0)
    ∧ (Asked live (.setLane (laneRecord 7 8256)) ∧ (Request.setLane (laneRecord 7 8256)).fits ∧ live.shared.holder = some .c0)
    ∧ (Asked live (.setLane (laneRecord 8 8192)) ∧ (Request.setLane (laneRecord 8 8192)).fits ∧ laneOfNumber 8 = none) :=
  ⟨⟨asked rfl rfl, by simp [Request.fits, laneRecord], rfl⟩, ⟨asked rfl rfl, by simp [Request.fits, laneRecord], rfl⟩,
    ⟨asked rfl rfl, by simp [Request.fits, laneRecord], rfl⟩⟩

theorem witness_arrivalOnEmptyFifo : Settled live ∧ (live.lane .l5).linkUp = true ∧ (live.lane .l5).fifo = [] := ⟨settled_of_ports rfl, rfl, rfl⟩

/-- L4 with a filling band at IRL 9 of block 0 and one trigger waiting, at IRL 10. -/
def filing : State :=
  let b : Band := { sealedBand with lane := .l4, rn := 0, block := 0, startIrl := 9, lastIrl := 9, presence := [(9, 4)], startStamp := 9
                                    width := 4096, base := 16384, sealing := none }
  let l := { live.lane .l4 with state := .active .run, fifo := [⟨10, 0, .run⟩], lastStamp := some 9, bandRn := some 0 }
  (live.setLane .l4 l).withBsc { live.bsc with bands := [(7, b)], free := [], filling := live.bsc.filling.set .l4 (some 7) }

/-- Clause by clause: the plain line; a drain of 1; an immediate item; a realign discard, a stamp that no entry holds, and one that is
placed; a test line. -/
theorem witness_cameraLineFiled : let l := filing.lane .l4
    (Settled filing ∧ l.linkUp = true ∧ l.fifo = [⟨10, 0, .run⟩] ∧ l.drain = 0 ∧ l.pendingImmediate = none ∧ l.pendingWidth = none
    ∧ filing.cb.commit = none ∧ filing.le = .idle ∧ l.lastStamp = some 9 ∧ lineDiff 10 9 = 1
    ∧ filing.ru.lookup 10 = some filing.ru.newest ∧ filing.bsc.filling.get .l4 = some 7
    ∧ (filing.band 7).map (fun b => (b.sealing, b.rn, b.block, b.width, b.base)) = some (none, filing.ru.newest.rn, 10 / 64, l.width, l.base))
    ∧ l.fifo ≠ []
    ∧ ((withLane .l4 (fun l => { l with drain := 1 }) filing).lane .l4).drain = 1
    ∧ ((withLane .l4 (fun l => { l with pendingImmediate := some l.immediate }) filing).lane .l4).pendingImmediate = some l.immediate
    ∧ (lineDiff (9 - BitVec.ofNat 32 0) 9 ≤ 0 ∧ 0 < lineDiff (10 - BitVec.ofNat 32 0) 9)
    ∧ (live.lane .l4).lastStamp = none ∧ live.ru.lookup (149 - BitVec.ofNat 32 150) = none
    ∧ (LineBody.samples .test { filing.lane .l4 with source := .flat, width := 2 } 10) = some [2048, 2048] := by
  refine ⟨⟨settled_of_ports rfl, rfl, rfl, rfl, rfl, rfl, rfl, rfl, rfl, ?_, rfl, rfl, rfl⟩, ?_, rfl, rfl, ?_, rfl, ?_, rfl⟩
  all_goals decide

/-- L5 in CHECK, HUNTING or IN_STEP. -/
def checking (c : Checker) : State := withLane .l5 (fun l => { l with state := .active .check, fifo := [⟨9, 0, .check⟩], checker := c }) live

/-- For any checker, HUNTING or IN_STEP: a line or a damaged frame for the one entry, and no commit pending. -/
theorem witness_checkLineJudged (c : Checker) : let l := (checking c).lane .l5
    Settled (checking c) ∧ l.linkUp = true ∧ l.fifo = [⟨9, 0, .check⟩] ∧ l.drain = 0 ∧ l.pendingImmediate = none
    ∧ (checking c).cb.commit = none ∧ l.checker.inStep = c.inStep := ⟨settled_of_ports rfl, rfl, rfl, rfl, rfl, rfl, rfl⟩

/-- L5 with a mode and source item pending. -/
def changing (m : LaneMode) (src : Source) (s : State) : State := withLane .l5 (fun l => { l with pendingMode := some (m, src) }) s

/-- The states and sources; then the items: none; RUN to OFF under the same source, FIFO full and empty; OFF to CHECK and to RUN; FAULT
to OFF; a change of source with four entries. -/
theorem witness_triggerTaken :
    (live.lane .l5).state = .off
    ∧ ((withLane .l5 (fun l => { l with fifo := l.fifo.drop 1 }) behind).lane .l5).fifo.length < 4
    ∧ ((behind.lane .l5).state = .active .run ∧ (behind.lane .l5).source = .camera ∧ (behind.lane .l5).fifo.length = 4)
    ∧ (let s := withLane .l5 (fun l => { l with source := .ramp }) behind;
      (s.lane .l5).state = .active .run ∧ (s.lane .l5).source ≠ .camera)
    ∧ ((withLane .l5 (fun l => { l with state := .fault .run }) live).lane .l5).state = .fault .run
    ∧ (behind.lane .l5).pendingMode = none
    ∧ (let s := changing .off .camera behind;
      (s.lane .l5).pendingMode = some (.off, .camera) ∧ (s.lane .l5).state.mode = some .run ∧ (s.lane .l5).source = .camera)
    ∧ (let s := withLane .l5 (fun l => { l with fifo := [] }) (changing .off .camera behind);
      (s.lane .l5).pendingMode = some (.off, .camera) ∧ (s.lane .l5).fifo = [])
    ∧ (let s := changing (.active .check) .camera live;
      (s.lane .l5).pendingMode = some (.active .check, .camera) ∧ (s.lane .l5).state.mode = none ∧ (s.lane .l5).linkUp = true)
    ∧ (let s := changing (.active .run) .camera (withLane .l5 (fun l => { l with linkUp := false }) live);
      (s.lane .l5).pendingMode = some (.active .run, .camera) ∧ (s.lane .l5).state = .off ∧ (s.lane .l5).linkUp = false)
    ∧ (let s := changing .off .camera (withLane .l5 (fun l => { l with state := .fault .run }) live);
      (s.lane .l5).pendingMode = some (.off, .camera) ∧ (s.lane .l5).state = .fault .run)
    ∧ (let s := changing (.active .run) .flat behind;
      (s.lane .l5).pendingMode = some (.active .run, .flat) ∧ Source.flat ≠ (s.lane .l5).source ∧ (s.lane .l5).fifo.length = 4) := by decide

/-- A loss in RUN with four entries, in CHECK, and of an OFF lane that drains; a return to CHECK, and of an OFF lane. -/
theorem witness_laneLinks :
    ((behind.lane .l5).linkUp = true ∧ (behind.lane .l5).state = .active .run ∧ (behind.lane .l5).fifo.length = 4)
    ∧ (let s := checking ⟨true, 3, 9⟩;
      (s.lane .l5).linkUp = true ∧ (s.lane .l5).state = .active .check)
    ∧ (let s := withLane .l5 (fun l => { l with state := .off, drain := 4 }) behind;
      (s.lane .l5).linkUp = true ∧ (∀ m, (s.lane .l5).state ≠ .active m) ∧ (s.lane .l5).fifo.length = 4)
    ∧ (let s := withLane .l5 (fun l => { l with state := .fault .check, linkUp := false }) live;
      (s.lane .l5).state = .fault .check)
    ∧ (Settled live ∧ (live.lane .l5).state = .off) :=
  ⟨⟨rfl, rfl, rfl⟩, ⟨rfl, rfl⟩, ⟨rfl, by simp [withLane], rfl⟩, rfl, settled_of_ports rfl, rfl⟩

/-! #### Correction Block -/

theorem witness_correctionOfLine : [(3000 : Sample)][0]? = some 3000 := rfl

/-- Clause by clause: PAGE_CLEAR; PAGE_SEEK to 255 and 256; PAGE_FILL of 33 entries and of 32. -/
theorem witness_stagingRequests : live.shared.holder = some .c0 ∧ live.cb.commit = none
    ∧ Asked live .pageClear ∧ Asked live (.pageSeek 255) ∧ Asked live (.pageSeek 256)
    ∧ (let es := List.replicate 33 ({ dark := 1, gain := 2 } : Correction);
      Asked live (.pageFill es) ∧ (Request.pageFill es).fits ∧ live.cb.pointer ≤ 255 ∧ 32 < es.length)
    ∧ (let es := List.replicate 32 ({ dark := 4095, gain := 16383 } : Correction);
      Asked live (.pageFill es) ∧ (Request.pageFill es).fits ∧ es.length ≤ 32 ∧ ∀ c ∈ es, c.dark ≤ 4095 ∧ c.gain ≤ 16383) :=
  ⟨rfl, rfl, asked rfl rfl, asked rfl rfl, asked rfl rfl,
    ⟨asked rfl rfl, by simp only [Request.fits]; decide, by decide, by decide⟩,
    ⟨asked rfl rfl, by simp only [Request.fits]; decide, by decide, by decide⟩⟩

/-- A commit waiting for L5. -/
def committing : State := behind.withCb { live.cb with commit := some { lane := .l5, page := 0, port := .c0 } }

/-- Clause by clause: page 32; a lane in RUN; a lane that is OFF; lane 8; a pending commit. -/
theorem witness_pageCommitTaken : live.shared.holder = some .c0 ∧ behind.shared.holder = some .c0 ∧ live.cb.commit = none ∧ behind.cb.commit = none
    ∧ Asked live (.pageCommit (laneNumber .l4) 32)
    ∧ (Asked behind (.pageCommit (laneNumber .l5) 31) ∧ (behind.lane .l5).state = .active .run)
    ∧ (Asked live (.pageCommit (laneNumber .l4) 31) ∧ (live.lane .l4).state = .off)
    ∧ Asked live (.pageCommit 8 31)
    ∧ (Asked committing .pageClear ∧ (Request.pageClear.frame 5).requestKind = some .pageClear ∧ committing.cb.commit.isSome = true)
    ∧ (committing.cb.commit = some { lane := .l5, page := 0, port := .c0 } ∧ (committing.lane .l5).linkUp = true
      ∧ (committing.lane .l5).state = .active .run) :=
  ⟨rfl, rfl, rfl, rfl, asked rfl rfl, ⟨asked rfl rfl, rfl⟩, ⟨asked rfl rfl, rfl⟩, asked rfl rfl, ⟨asked rfl rfl, rfl, rfl⟩, ⟨rfl, rfl, rfl⟩⟩

/-! #### Leveling Engine -/

def search (lanes : List (Nat × Nat)) : LevelFields := { reference := 5, threshold := 255, span := 65535, apply := true, lanes := lanes }

theorem witness_levelStartTaken : let f := search [(5, 4095), (0, 0)]
    Asked behind (.levelStart f) ∧ behind.shared.holder = some .c0 ∧ behind.le = .idle ∧ laneOfNumber f.reference = some .l5
    ∧ (f.lanes.map (·.1)).Nodup ∧ f.reference ∈ f.lanes.map (·.1)
    ∧ (∀ x ∈ f.lanes, ∃ k, laneOfNumber x.1 = some k ∧ x.2 < (behind.lane k).width ∧ x.2 < 65536)
    ∧ (laneNumber .l5, 4095) ∈ f.lanes ∧ (behind.lane .l5).state = .active .run := by
  refine ⟨asked rfl rfl, rfl, rfl, rfl, by decide, by decide, ?_, by decide, rfl⟩
  intro x hx
  simp only [search, List.mem_cons, List.not_mem_nil, or_false] at hx
  rcases hx with rfl | rfl
  · exact ⟨.l5, rfl, by decide, by decide⟩
  · exact ⟨.l0, rfl, by decide, by decide⟩

/-- The engine with the search of 5.7 in progress. -/
def searching (wln : Line) : State := withMotion (fun m => { m with wln := wln }) (live.withLe (.searching skew))

/-- Clause by clause: a search runs; a probe at the width; no lane in RUN. -/
theorem witness_levelStartRefusedOrEnded : live.shared.holder = some .c0
    ∧ (Asked (searching 874901) (.levelStart (search [])) ∧ (searching 874901).le = .searching skew)
    ∧ (let f := search [(5, 4096)];
      Asked live (.levelStart f) ∧ (Request.levelStart f).fits ∧ live.le = .idle
      ∧ (laneNumber .l5, 4096) ∈ f.lanes ∧ ¬4096 < (live.lane .l5).width)
    ∧ (let f := search [(5, 4095)];
      Asked live (.levelStart f) ∧ (Request.levelStart f).fits
      ∧ (1 ≤ f.lanes.length ∧ f.lanes.length ≤ 8 ∧ (f.lanes.map (·.1)).Nodup ∧ (∀ x ∈ f.lanes, x.1 ≤ 7)
        ∧ f.reference ≤ 7 ∧ f.reference ∈ f.lanes.map (·.1) ∧ f.threshold ≤ 255 ∧ 1 ≤ f.span ∧ f.span ≤ 65535)
      ∧ (∀ k n, (laneNumber k, n) ∈ f.lanes → n < (live.lane k).width)
      ∧ ∀ k n, (laneNumber k, n) ∈ f.lanes → (live.lane k).state ≠ .active .run) := by
  refine ⟨rfl, ⟨asked rfl rfl, rfl⟩, ⟨asked rfl rfl, by simp [Request.fits, search], rfl, by decide, by decide⟩,
    ⟨asked rfl rfl, by simp [Request.fits, search], by decide, fun k n h => ?_, fun k n _ => by cases k <;> decide⟩⟩
  simp only [search, List.mem_singleton, Prod.mk.injEq] at h
  rw [h.2]
  cases k <;> decide

/-- L0 and L5 WAITING from line 100 on, in RUN, L0 with the value 40 before. -/
def seeking : State :=
  let r := fun v => (some { probe := 1, status := .waiting, previous := v, edge := none } : Option SearchRecord)
  let x : Search := { skew with start := 100, records := ((PerLane.all none).set .l0 (r (some 40))).set .l5 (r none) }
  (withLane .l0 (fun l => { l with state := .active .run }) (behind.withMu { behind.mu with wln := 200 })).withLe (.searching x)

/-- One line before the span's end, and at it, with a reference edge and without. Then a WAITING lane's lines at the start line: missing, too short for the probe, below
the threshold and at it, with lanes left WAITING and with none; and a lane in RUN that loses its link or is to go OFF. -/
theorem witness_spanEndTaken :
    ((searching 879899).le = .searching skew ∧ lineDiff (searching 879899).mu.wln skew.start < skew.request.span ∧ Settled (searching 879899))
    ∧ ((searching 879900).le = .searching skew ∧ (skew.request.span : Int) ≤ lineDiff (searching 879900).mu.wln skew.start)
    ∧ (let s := withMotion (fun m => { m with wln := 5100 }) seeking;
      ∃ x r q, s.le = .searching x ∧ (x.request.span : Int) ≤ lineDiff s.mu.wln x.start
      ∧ x.records.get x.request.reference = some r ∧ r.status ≠ .edge ∧ x.records.get .l5 = some q)
    ∧ (∃ x r q, seeking.le = .searching x ∧ x.records.get .l0 = some r ∧ x.records.get .l5 = some q ∧ x.records.get .l3 = none
      ∧ r.status = .waiting ∧ r.previous = some 40 ∧ q.status = .waiting ∧ lineDiff 100 x.start = 0 ∧ x.request.threshold = 128
      ∧ (∀ bytes, some [0xFF] = some bytes → bytes.length ≤ r.probe)
      ∧ ([0, 127] : List Byte)[r.probe]? = some 127 ∧ ([0, 128] : List Byte)[r.probe]? = some 128
      ∧ Search.awaits { x with records := x.records.set .l0 (some { r with status := .edge }) }
      ∧ ¬Search.awaits { x with records := (PerLane.all none).set .l0 (some { r with status := .edge }) })
    ∧ (seeking.lane .l5).state = .active .run ∧ (seeking.lane .l5).linkUp = true
    ∧ ((changing .off .camera seeking).lane .l5).pendingMode = some (.off, .camera) := by
  refine ⟨⟨rfl, by decide, settled_of_ports rfl⟩, ⟨rfl, by decide⟩,
    ⟨_, _, _, rfl, by decide, rfl, by decide, rfl⟩,
    ⟨_, _, _, rfl, rfl, rfl, rfl, rfl, rfl, rfl, rfl, rfl, ?_, rfl, rfl, ⟨.l5, _, rfl, rfl⟩, ?_⟩, rfl, rfl, rfl⟩
  · rintro bytes ⟨⟩; decide
  · rintro ⟨k, r, h, hw⟩
    cases k <;> cases h
    cases hw

theorem witness_levelAbortTaken :
    (Asked (searching 874901) .levelAbort ∧ (searching 874901).shared.holder = some .c0 ∧ (searching 874901).le = .searching skew)
    ∧ (Asked live .levelAbort ∧ live.shared.holder = some .c0 ∧ live.le = .idle) := ⟨⟨asked rfl rfl, rfl, rfl⟩, ⟨asked rfl rfl, rfl, rfl⟩⟩

/-! #### Readouts -/

theorem witness_readouts : Asked live .snapshot ∧ Asked live .log ∧ Asked live (.laneInfo 255) ∧ Asked live (.tableRead 7 8191)
    ∧ Asked live .levelResults ∧ Asked live (.windowInfo 63) :=
  ⟨asked rfl rfl, asked rfl rfl, asked rfl rfl, asked rfl rfl, asked rfl rfl, asked rfl rfl⟩
theorem witness_statusTaken : Asked live .status := asked rfl rfl

/-! #### Band Store Controller and Window Matcher -/

/-- A line of L4 at an IRL, missing or captured. -/
def lineAt (irl : Nat) (samples : Option (List Byte)) : Placement :=
  { lane := .l4, samples := samples, stamp := 10, rn := 0, irl := irl, firstIrl := 0, width := 4096, base := 16384, camera := true }

/-- Slot 0 for a first line; an empty free list; a filling band, which lines at IRL 10 and 63 extend, one at IRL 64 does not, and a
seal ends. -/
theorem witness_bandsOpenedAndSealed :
    (live.bsc.filling.get .l4 = none ∧ live.bsc.free.take 2 = [0, 1] ∧ (lineAt 63 none).width ≤ 8192 ∧ (lineAt 63 none).irl % 64 = 63)
    ∧ (let s := live.withBsc { live.bsc with free := [] };
      s.bsc.filling.get .l4 = none ∧ s.bsc.free = [])
    ∧ (∃ b, filing.bsc.filling.get .l4 = some 7 ∧ filing.band 7 = some b
      ∧ (∀ irl ∈ [10, 63], ∀ samples, let x := lineAt irl samples
        b.rn = x.rn ∧ b.block = x.irl / 64 ∧ b.width = x.width ∧ b.base = x.base)
      ∧ b.block ≠ (lineAt 64 (some [1])).irl / 64) := by
  refine ⟨⟨rfl, by decide +kernel, by decide, rfl⟩, ⟨rfl, rfl⟩, _, rfl, rfl, fun irl h samples => ?_, by decide⟩
  have h : irl = 10 ∨ irl = 63 := by simpa using h
  rcases h with rfl | rfl
  · exact ⟨rfl, (by decide : 0 = 10 / 64), rfl, rfl⟩
  · exact ⟨rfl, (by decide : 0 = 63 / 64), rfl, rfl⟩

/-- A seal that one window wants leaves the slot HELD by one holder; one that no window wants leaves it FREE (R106). -/
theorem witness_bandsOpenedAndSealed_matched :
    ((sealBand .l4 false (filing.withWindows [(3, wide)])).band 7).map (fun b => b.sealing.map (·.holders)) = some (some 1)
    ∧ ((sealBand .l4 false filing).band 7).isNone = true ∧ (sealBand .l4 false filing).bsc.free = [7] := by decide +kernel

/-- Clause by clause: no window 4; a CLOSING one; an entry at a LIVE owner; a loss at a STALLED one; a table in order; a clip of the
last line of a window that ends there. -/
theorem witness_matchOfWindow :
    queued.window 4 = none
    ∧ (let s := live.withWindows [(3, { wide with closing := some 1 })];
      (s.window 3).map (·.closing) = some (some 1))
    ∧ (queued.window 3).map (fun w => (w.closing, w.candidate sealedBand, (queued.port w.owner).state)) = some (none, true, .live)
    ∧ (let s := queued.setPort .c0 { queued.port .c0 with state := .stalled };
      (s.window 3).map (fun w => (w.closing, w.candidate sealedBand, (s.port w.owner).state)) = some (none, true, .stalled))
    ∧ WindowsOk queued
    ∧ (let w := { wide with l0 := 192, l1 := some 192, c0 := 12287 };
      w.c0 ≤ sealedBand.base + sealedBand.width - 1 ∧ sealedBand.base ≤ w.c1 ∧ w.l0 ≤ sealedBand.lastIrl
      ∧ (∀ l1, w.l1 = some l1 → sealedBand.startIrl ≤ l1 ∧ w.l0 ≤ l1) ∧ w.c0 ≤ w.c1 ∧ 1 ≤ sealedBand.width
      ∧ sealedBand.startIrl ≤ sealedBand.lastIrl ∧ sealedBand.lastIrl < sealedBand.startIrl + 64) := by
  refine ⟨by decide, by decide, by decide, by decide, windowsOk_queued, by decide, by decide, by decide, ?_, by decide, by decide, by decide,
    by decide⟩
  rintro l1 ⟨⟩
  decide

/-- Every id in use. -/
def full : State := live.withWindows ((List.range 64).map fun id => (id, wide))
/-- C0 STALLED. -/
def stalled : State := live.setPort .c0 { live.port .c0 with state := .stalled }

/-- A taken request of C0 while it is STALLED. -/
theorem asked_stalled (r : Request) : Asked stalled r := by
  have port : ∀ p, (ask stalled r).port p = { stalled.port p with requests := if p = .c0 then [r.frame 5] else [] } := by
    intro p; cases p <;> rfl
  refine ⟨⟨fun p => ?_, fun p => ?_⟩, ?_, ?_⟩
  · rw [arbitrate_eq_self, port p]
    cases p <;> intro a b <;> exact ⟨rfl, rfl, fun e he => by cases he⟩
  · rw [port p]; cases p <;> rfl
  · rw [port .c0]; rfl
  · rfl

/-- A table of windows without queued entries or strips in flight is in order when its windows are. -/
theorem windowsOk_of {s : State} {r : Request} (h : s.ports = live.ports) (sorted : tableSorted s.windows)
    (wide' : ∀ id w, s.window id = some w → id < 64 ∧ w = wide) : WindowsOk (ask s r) := by
  have port : ∀ p, (ask s r).port p = { live.port p with requests := if p = .c0 then [r.frame 5] else [] } := by
    intro p
    unfold ask
    cases p <;> simp only [State.port, State.setPort, State.withPorts, PerPort.set, PerPort.get, h] <;> rfl
  refine ⟨sorted, fun id w hw => (wide' id w hw).1, ?_, ?_, ?_, ?_, ?_⟩
  · intro p cls e he; rw [port p] at he; cases p <;> cases cls <;> cases he
  · intro p id he; rw [port p] at he; cases p <;> cases he
  · intro id w n hw hn; rw [(wide' id w hw).2] at hn; cases hn
  · intro id w hw _; rw [(wide' id w hw).2, port]; rfl
  · intro id w hw; rw [(wide' id w hw).2]; decide

/-- Clause by clause: a STALLED port; l0 above l1; no FREE record; id 0 the lowest FREE id. -/
theorem witness_windowOpenTaken :
    (Asked stalled (.windowOpen every) ∧ (stalled.port .c0).state = .stalled)
    ∧ (let f := { every with l0 := 9, l1 := some 8 };
      Asked live (.windowOpen f) ∧ (Request.windowOpen f).fits ∧ (live.port .c0).state = .live ∧ f.inRange = false)
    ∧ (Asked full (.windowOpen every) ∧ (full.port .c0).state = .live ∧ every.inRange = true ∧ ∀ id, id < 64 → (full.window id).isSome = true)
    ∧ (Asked live (.windowOpen every) ∧ WindowsOk (ask live (.windowOpen every)) ∧ (Request.windowOpen every).fits ∧ live.window 0 = none) :=
  ⟨⟨asked_stalled _, rfl⟩, ⟨asked rfl rfl, by simp [Request.fits, every], rfl, by decide⟩,
    ⟨asked rfl rfl, rfl, by decide, by decide +kernel⟩,
    ⟨asked rfl rfl, windowsOk_of rfl List.Pairwise.nil (fun id w h => by cases h), by simp [Request.fits, every], rfl⟩⟩

/-- C0's window 3, and the same adopted from C0 by C1. -/
def owned : State := live.withWindows [(3, wide)]
def adopted : State := live.withWindows [(3, { wide with owner := .c1, adopted := true })]

theorem holdersOk_owned (r : Request) : HoldersOk (ask owned r) := by
  refine ⟨fun slot b r hb _ => ?_, fun slot b hb _ => ?_, fun slot _ => ?_⟩
  · cases hb
  · cases hb
  · simp [State.naming, allPorts, ask, owned, ConsumerPort.entries, State.port, State.setPort, PerPort.set, PerPort.get, live, State.reset,
      PerPort.all, ConsumerPort.initial, State.withPorts, State.withWindows]

/-- Clause by clause: id 64; id 4, which is FREE; the owner's close; a return of an adopted window to its LIVE origin, and of one that is
not adopted. -/
theorem witness_windowCloseAndReturn :
    (Asked owned (.windowClose 64) ∧ Asked owned (.windowReturn 64))
    ∧ (Asked owned (.windowClose 4) ∧ Asked owned (.windowReturn 4) ∧ owned.window 4 = none)
    ∧ (Asked owned (.windowClose 3) ∧ HoldersOk (ask owned (.windowClose 3)) ∧ WindowsOk (ask owned (.windowClose 3))
      ∧ PressureOk (ask owned (.windowClose 3)) ∧ owned.window 3 = some wide)
    ∧ (Asked adopted (.windowReturn 3) ∧ (adopted.window 3).map (fun w => (w.closing, w.origin, w.adopted)) = some (none, .c0, true)
      ∧ (adopted.port .c0).state = .live)
    ∧ (Asked owned (.windowReturn 3) ∧ wide.adopted = false) := by
  refine ⟨⟨asked rfl rfl, asked rfl rfl⟩, ⟨asked rfl rfl, asked rfl rfl, rfl⟩, ⟨asked rfl rfl, holdersOk_owned _, ?_, pressureOk_same pressureOk_live rfl, rfl⟩,
    ⟨asked rfl rfl, rfl, rfl⟩, ⟨asked rfl rfl, rfl⟩⟩
  refine windowsOk_of rfl (by simp [tableSorted, owned]) ?_
  intro id w h
  by_cases e : id = 3
  · subst e; cases h; exact ⟨by decide, rfl⟩
  · have : (3 : Nat) ≠ id := fun x => e x.symm
    simp [State.window, owned, tableGet, this] at h

/-! #### Consumer Ports -/

def storing (reserve stallTimeout : Nat) : StoreFields := { reserve := reserve, stallTimeout := stallTimeout, standby := some .c1 }

/-- Grants of 0 and 64; records out of range and at the bounds. -/
theorem witness_grantAndSetStore : live.shared.holder = some .c0 ∧ Asked live (.grant 0) ∧ Asked stalled (.grant 64)
    ∧ (Asked live (.setStore (storing 1025 1)) ∧ (Request.setStore (storing 1025 1)).fits)
    ∧ (Asked live (.setStore (storing 1024 1000)) ∧ (Request.setStore (storing 1024 1000)).fits) :=
  ⟨rfl, asked rfl rfl, asked_stalled _, ⟨asked rfl rfl, by simp [Request.fits, storing]⟩, ⟨asked rfl rfl, by simp [Request.fits, storing]⟩⟩

/-- A DOWN port; a LIVE port that holds the claim and owns an OPEN window, without a standby and with one. -/
def spare : State := (queued.setPort .c1 (ConsumerPort.initial .live true)).withShared { queued.shared with standby := some .c1 }
theorem witness_steeringLinks : (live.port .c1).state = .down
    ∧ ((queued.port .c0).isUp = true ∧ queued.shared.restart ≠ some .c0 ∧ queued.shared.holder = some .c0 ∧ queued.shared.standby = none
      ∧ (queued.window 3).map (fun w => (w.owner, w.closing)) = some (.c0, none))
    ∧ ((spare.port .c0).isUp = true ∧ spare.shared.restart ≠ some .c0 ∧ spare.shared.standby = some .c1 ∧ (spare.port .c1).state = .live) := by decide

/-- C0 ending a notice frame, with work waiting. -/
def ending (c : ConsumerPort → ConsumerPort) (s : State) : State :=
  s.setPort .c0 (c { s.port .c0 with outbound := some (.notice 1) })
def anyResponse : Response := { kind := 20, tag := 1, code := .done, merged := false, overflow := false, data := .nothing }

theorem settled_ending (c : ConsumerPort → ConsumerPort) (busy : ∀ x, (c x).outbound = x.outbound)
    (stall : (c { live.port .c0 with outbound := some (.notice 1) }).stall.isSome = (c { live.port .c0 with outbound := some (.notice 1) }).stalling) :
    Settled (ending c live) := by
  constructor
  · intro p
    rw [arbitrate_eq_self]
    cases p
    · intro a b
      have h := busy { live.port .c0 with outbound := some (.notice 1) }
      change (c { live.port .c0 with outbound := some (.notice 1) }).outbound = none at b
      rw [h] at b; cases b
    all_goals intro a b; exact ⟨rfl, rfl, fun e he => by cases he⟩
  · intro p
    cases p
    · exact stall
    all_goals rfl

/-- Clause by clause: a response waits; a notice waits; nothing waits; an entry with credit. -/
theorem witness_frameCompletions :
    (let s := ending (fun c => { c with responses := [anyResponse] }) live;
      Settled s ∧ (s.port .c0).isUp = true ∧ (s.port .c0).outbound = some (.notice 1) ∧ s.shared.restart = none
      ∧ (s.port .c0).responses = [anyResponse])
    ∧ (let s := ending (fun c => { c with notice := some 4 }) live;
      Settled s ∧ (s.port .c0).outbound = some (.notice 1) ∧ (s.port .c0).responses = [] ∧ (s.port .c0).notice = some 4)
    ∧ (let s := ending id live;
      Settled s ∧ (s.port .c0).outbound = some (.notice 1) ∧ (s.port .c0).credit = 0)
    ∧ (let s := ending (fun c => { c with credit := 1, stall := none }) queued;
      Settled s ∧ (s.port .c0).isUp = true ∧ (s.port .c0).outbound = some (.notice 1) ∧ s.shared.restart = none ∧ 1 ≤ (s.port .c0).credit
      ∧ (s.port .c0).essential.map (fun e => ((s.window e.window).isSome, (s.band e.slot).map fun b => b.sealing.isSome)) = [(true, some true)]) := by
  refine ⟨⟨settled_ending _ (fun _ => rfl) rfl, rfl, rfl, rfl, rfl⟩, ⟨settled_ending _ (fun _ => rfl) rfl, rfl, rfl, rfl⟩,
    ⟨settled_ending _ (fun _ => rfl) rfl, rfl, rfl⟩, ⟨⟨fun p => by cases p <;> rfl, fun p => by cases p <;> rfl⟩, rfl, rfl, rfl, by decide, rfl⟩⟩

/-- A RESTART whose DONE is on the link. -/
def restarting : State :=
  (live.withShared { live.shared with restart := some .c0 }).setPort .c0 { live.port .c0 with outbound := some (.response { anyResponse with kind := 28 }) }
theorem witness_restartApplied : restarting.shared.restart = some .c0 ∧ (restarting.port .c0).isUp = true
    ∧ (restarting.port .c0).outbound = some (.response { anyResponse with kind := 28 }) := ⟨rfl, rfl, rfl⟩

/-- C0 sending its last strip of slot 0, of an OPEN window. -/
def strip : Entry := { slot := 0, window := 3, firstIrl := 192, lines := 64, firstColumn := 8192, columns := 4096, cls := .essential }
def flying (h : StripHeader) : State := queued.setPort .c0 { queued.port .c0 with essential := [], stall := none, outbound := some (.strip strip h) }
theorem witness_stripCompletions (h : StripHeader) : Settled (flying h) ∧ WindowsOk (flying h) ∧ ((flying h).port .c0).isUp = true
    ∧ ((flying h).port .c0).outbound = some (.strip strip h)
    ∧ ((flying h).band 0).map (fun b => b.sealing.map (·.holders)) = some (some 1) := by
  have only : ∀ id w, (flying h).window id = some w → id = 3 ∧ queued.window 3 = some w := by
    intro id w hw
    have hw : queued.window id = some w := hw
    rw [queued_window] at hw
    split at hw
    next e => exact ⟨e, hw⟩
    · cases hw
  refine ⟨⟨fun p => by cases p <;> rfl, fun p => by cases p <;> rfl⟩, ⟨windowsOk_queued.sorted, windowsOk_queued.ids, ?_, ?_, ?_, ?_, ?_⟩, rfl, rfl, rfl⟩
  · intro p cls e he; cases p <;> cases cls <;> cases he
  · intro p id hi; cases p <;> cases hi; rfl
  · intro id w n hw hn; obtain ⟨_, hw⟩ := only id w hw; cases hw; cases hn
  · intro id w hw _; obtain ⟨_, hw⟩ := only id w hw; cases hw; rfl
  · intro id w hw; obtain ⟨_, hw⟩ := only id w hw; cases hw; decide

/-- A strip of a sealed band on the link. -/
theorem witness_frameCompletions_payload (h : StripHeader) : ((flying h).port .c0).outbound = some (.strip strip h)
    ∧ ((flying h).band strip.slot).map (fun b => (b.sealing.isSome, tableGet b.presence 192)) = some (true, some 4096) := ⟨rfl, rfl⟩

/-! A link loss of C0, with its entry queued, with and without a standby, and with a strip in flight for an OPEN and a CLOSING window. -/

theorem holdersOk_flying (h : StripHeader) : HoldersOk (flying h) := by
  refine ⟨fun slot b r hb hr => ?_, fun slot b hb hr => ?_, fun slot hb => ?_⟩
  · have hb : queued.band slot = some b := hb
    rw [queued_band] at hb
    split at hb
    next e => subst e; cases hb; cases hr; exact ⟨rfl, by decide⟩
    · cases hb
  · exact absurd hr fun hr => by
      have hb : queued.band slot = some b := hb
      rw [queued_band] at hb
      split at hb
      · cases hb; cases hr
      · cases hb
  · by_cases e : slot = 0
    · subst e; cases hb
    · have : (0 : Nat) ≠ slot := fun x => e x.symm
      simp [State.naming, allPorts, flying, queued, strip, ConsumerPort.entries, State.port, State.setPort, PerPort.set, PerPort.get, live,
        State.reset, PerPort.all, ConsumerPort.initial, State.withPorts, State.withBsc, State.withWindows, this]
theorem portsOk_flying (h : StripHeader) : PortsOk (flying h) := by
  refine ⟨fun p e => ?_, fun p e => ?_, fun p e => ?_, fun p e => ?_⟩
  · cases p <;> first | rfl | (change true = false at e; cases e)
  · cases p <;> first | exact ⟨rfl, rfl, rfl, rfl, rfl, rfl, rfl, rfl, rfl, rfl⟩ | (change PortState.live = .down at e; cases e)
  · cases p <;> first | rfl | (change some Port.c0 = some _ at e; cases e)
  · cases e
theorem holdersOk_spare : HoldersOk spare := by
  refine ⟨fun slot b r hb hr => ?_, fun slot b hb hr => ?_, fun slot hb => ?_⟩
  · exact holdersOk_queued.held slot b r hb hr
  · exact holdersOk_queued.filling slot b hb hr
  · exact holdersOk_queued.free slot hb
theorem windowsOk_spare : WindowsOk spare := by
  refine ⟨windowsOk_queued.sorted, windowsOk_queued.ids, fun p cls e he => ?_, fun p id hi => ?_, windowsOk_queued.closing, fun id w hw hc => ?_,
    windowsOk_queued.adopted⟩
  · refine windowsOk_queued.queued p cls e ?_
    cases p <;> cases cls <;> exact he
  · cases p <;> cases hi
  · have hw : queued.window id = some w := hw
    rw [queued_window] at hw
    split at hw
    · cases hw; rfl
    · cases hw
theorem portsOk_spare : PortsOk spare := by
  refine ⟨fun p => ?_, fun p => ?_, fun p => ?_, fun p => ?_⟩ <;> cases p <;> decide
theorem settled_spare : Settled spare := ⟨fun p => by cases p <;> rfl, fun p => by cases p <;> rfl⟩
theorem slotsOk_same {s : State} (h : s.bsc = queued.bsc) : SlotsOk s := by
  refine ⟨?_, ?_, fun k slot => ?_⟩
  · rw [h]; exact slotsOk_queued.sorted
  · rw [h]; exact slotsOk_queued.once
  · unfold State.band; rw [h]; exact slotsOk_queued.filling k slot

/-- C0's window 3 CLOSING with its strip in flight. -/
def departing (h : StripHeader) : State := (flying h).withWindows [(3, { wide with sequence := 57, gap := true, closing := some 1 })]
theorem windowsOk_departing (h : StripHeader) : WindowsOk (departing h) := by
  have only : ∀ id w, (departing h).window id = some w → id = 3 ∧ (departing h).window 3 = some w := by
    intro id w hw
    by_cases e : id = 3
    · subst e; exact ⟨rfl, hw⟩
    · have : (3 : Nat) ≠ id := fun x => e x.symm
      simp [State.window, departing, tableGet, this] at hw
  refine ⟨by simp [tableSorted, departing], fun id w hw => ?_, ?_, ?_, ?_, ?_, ?_⟩
  · rw [(only id w hw).1]; decide
  · intro p cls e he; cases p <;> cases cls <;> cases he
  · intro p id hi; cases p <;> cases hi; rfl
  · intro id w n hw hn; obtain ⟨rfl, hw⟩ := only id w hw; cases hw; cases hn; exact ⟨rfl, by decide⟩
  · intro id w hw hn; obtain ⟨_, hw⟩ := only id w hw; cases hw; cases hn
  · intro id w hw; obtain ⟨_, hw⟩ := only id w hw; cases hw; decide

/-- What the loss clause of SteeringLinks supposes of a state. -/
def Losing (s : State) : Prop :=
  Settled s ∧ SlotsOk s ∧ HoldersOk s ∧ WindowsOk s ∧ PortsOk s ∧ (s.port .c0).isUp = true ∧ s.shared.restart ≠ some .c0
theorem witness_steeringLinks_lost (h : StripHeader) :
    (Losing queued ∧ PressureOk queued ∧ (∀ st, ¬TakesOver queued .c0 st) ∧ queued.leftOver .c0 .essential = [strip])
    ∧ (Losing spare ∧ TakesOver spare .c0 .c1 ∧ (spare.port .c0).essential = [strip])
    ∧ (Losing (flying h) ∧ (flying h).abortLost .c0 = [strip])
    ∧ (Losing (departing h) ∧ (departing h).abortLost .c0 = [] ∧ ((departing h).window 3).map (·.closing) = some (some 1)) := by
  refine ⟨⟨⟨settled_queued, slotsOk_queued, holdersOk_queued, windowsOk_queued, portsOk_queued, rfl, by decide⟩, pressureOk_queued, ?_, rfl⟩,
    ⟨⟨settled_spare, slotsOk_same rfl, holdersOk_spare, windowsOk_spare, portsOk_spare, rfl, by decide⟩, ⟨rfl, by decide, rfl⟩, rfl⟩,
    ⟨⟨(witness_stripCompletions h).1, slotsOk_same rfl, holdersOk_flying h, (witness_stripCompletions h).2.1, portsOk_flying h, rfl, ?_⟩, rfl⟩,
    ⟨⟨⟨fun p => by cases p <;> rfl, fun p => by cases p <;> rfl⟩, slotsOk_same rfl, ?_, windowsOk_departing h, ?_, rfl, ?_⟩, rfl, rfl⟩⟩
  · rintro st ⟨e, _⟩; cases e
  · intro e; cases e
  · exact ⟨(holdersOk_flying h).held, (holdersOk_flying h).filling, (holdersOk_flying h).free⟩
  · exact ⟨(portsOk_flying h).link, (portsOk_flying h).quiet, (portsOk_flying h).holder, (portsOk_flying h).restart⟩
  · intro e; cases e

theorem witness_stallExpired :
    (SlotsOk queued ∧ HoldersOk queued ∧ PressureOk queued ∧ Settled queued ∧ (queued.port .c0).state = .live ∧ (queued.port .c0).stall = some 10000000 ∧ queued.shared.standby = none)
    ∧ (Settled spare ∧ (spare.port .c0).state = .live ∧ (spare.port .c0).stall = some 10000000 ∧ spare.shared.standby = some .c1
      ∧ (spare.port .c1).state = .live ∧ (spare.port .c1).credit = 0) :=
  ⟨⟨slotsOk_queued, holdersOk_queued, pressureOk_queued, settled_queued, rfl, rfl, rfl⟩, ⟨settled_spare, rfl, rfl, rfl, rfl, rfl⟩⟩

/-! #### Marker Unit -/

def mark (rn : Line) (irl width : Nat) : MarkFields := { output := .mk0, rn := rn, irl := irl, width := width }

theorem logOk_marking : LogOk marking := ⟨by decide, rfl, trivial⟩

/-- Clause by clause: STALLED; width 65536; RN 413; an IRL below the first; a target at the current WLN; a merge; 32 entries; a new entry. -/
theorem witness_markOutTaken : LogOk marking ∧ marking.ru.newest.rn = 412 ∧ marking.ru.newest.firstIrl = 0 ∧ (marking.port .c0).state = .live
    ∧ Asked stalled (.markOut (mark 412 730 500))
    ∧ (Asked marking (.markOut (mark 412 730 65536)) ∧ (Request.markOut (mark 412 730 65536)).fits)
    ∧ (Asked marking (.markOut (mark 413 730 65535)) ∧ ∀ e ∈ marking.ru.older ++ [marking.ru.newest], e.rn ≠ 413)
    ∧ (let s := withRepeat (fun u => { u with newest := { u.newest with firstIrl := 731 } }) marking;
      LogOk s ∧ Asked s (.markOut (mark 412 730 1)) ∧ (730 : Nat) < s.ru.newest.firstIrl)
    ∧ (let s := withMotion (fun m => { m with wln := 5012730 }) marking;
      Asked s (.markOut (mark 412 730 1)) ∧ lineDiff 5012730 s.mu.wln ≤ 0)
    ∧ (let s := marking.withMku { marking.mku with queue := [markEntry 5012730 .mk0] };
      Asked s (.markOut (mark 412 730 1)) ∧ 0 < lineDiff 5012730 s.mu.wln ∧ markEntry 5012730 .mk0 ∈ s.mku.queue)
    ∧ (let s := marking.withMku { marking.mku with queue := List.replicate 32 (markEntry 5012731 .mk0) };
      Asked s (.markOut (mark 412 730 1)) ∧ 32 ≤ s.mku.queue.length ∧ ∀ m ∈ s.mku.queue, m.target ≠ 5012730)
    ∧ (Asked marking (.markOut (mark 412 730 1)) ∧ marking.mku.queue = []) := by
  refine ⟨logOk_marking, rfl, rfl, rfl, asked_stalled _, ⟨asked rfl rfl, by simp [Request.fits, mark]⟩, ⟨asked rfl rfl, by decide⟩,
    ⟨⟨by decide, rfl, trivial⟩, asked rfl rfl, by decide⟩, ⟨asked rfl rfl, by decide⟩, ⟨asked rfl rfl, by decide, by decide⟩,
    ⟨asked rfl rfl, by decide, by decide⟩, ⟨asked rfl rfl, rfl⟩⟩

/-- In range and out of range; a line at which nothing is due and one at which two entries are; a pulse that ends. -/
theorem witness_markerOutputs :
    (Asked live (.setMarkerOut (settingOf 1000000)) ∧ (Request.setMarkerOut (settingOf 1000000)).fits ∧ live.shared.holder = some .c0)
    ∧ (Asked live (.setMarkerOut (settingOf 1000001)) ∧ (Request.setMarkerOut (settingOf 1000001)).fits)
    ∧ (∀ e ∈ live.mku.queue, e.target ≠ 7)
    ∧ firing.mku.queue.filter (fun e => e.target = 5004101) = [markEntry 5004101 .mk1, markEntry 5004101 .mk0]
    ∧ (pulsing.mku.outputs.get .mk0).pulseEnd = some 81600 :=
  ⟨⟨asked rfl rfl, by simp [Request.fits, settingOf], rfl⟩, ⟨asked rfl rfl, by simp [Request.fits, settingOf]⟩, by decide, by decide, rfl⟩

/-! #### The request side -/

/-- Clause by clause: a frame too short; a frame at a queue of 8; a DOWN port. -/
theorem witness_requestArrived :
    (Settled live ∧ (live.port .c0).isUp = true ∧ ([1, 2] : List Byte).length < 11)
    ∧ (let s := ending (fun c => { c with requests := List.replicate 8 { kind := 20, tag := 7, fields := [5] } }) live;
      Settled s ∧ (s.port .c0).isUp = true ∧ (s.port .c0).requests.length = 8 ∧ (s.port .c0).responses.length < 16)
    ∧ (live.port .c1).state = .down :=
  ⟨⟨settled_of_ports rfl, rfl, by decide⟩, ⟨settled_ending _ (fun _ => rfl) rfl, rfl, rfl, by decide⟩, rfl⟩

/-- A request of a kind that is not known, at C0. -/
def strange : State := live.setPort .c0 { live.port .c0 with requests := [⟨29, 1, [4]⟩] }
/-- GRANT with two field bytes, at C0. -/
def overlong : State := live.setPort .c0 { live.port .c0 with requests := [⟨20, 1, [4, 4]⟩] }

/-- Clause by clause: kind 29; a claim request without the claim; fields that do not fit. -/
theorem witness_requestsRefused :
    (Settled strange ∧ Taken strange .c0 ⟨29, 1, [4]⟩ [] ∧ (28 : Nat) < (29 : Byte).toNat)
    ∧ (let s := live.withShared { live.shared with holder := none };
      Asked s .restart ∧ RequestKind.isClaim .restart = true ∧ s.shared.holder ≠ some .c0)
    ∧ (Settled overlong ∧ Taken overlong .c0 ⟨20, 1, [4, 4]⟩ [] ∧ RequestKind.isClaim .grant = false ∧ readRequest .grant [4, 4] = none) := by
  refine ⟨⟨⟨fun p => by cases p <;> rfl, fun p => by cases p <;> rfl⟩, ⟨rfl, rfl⟩, by decide⟩, ⟨asked rfl rfl, rfl, by decide⟩,
    ⟨⟨fun p => by cases p <;> rfl, fun p => by cases p <;> rfl⟩, ⟨rfl, rfl⟩, rfl, rfl⟩⟩

/-- Clause by clause: a free claim; the holder's own; another's; a release; lists of 1, 13 and 14 kinds; RESTART. For a raising: a kind
pending, masked off, enabled with no frame waiting and with one. -/
theorem witness_claimsAndNotices :
    (let s := live.withShared { live.shared with holder := none };
      Asked s .claim ∧ s.shared.holder = none ∧ Asked s .release)
    ∧ (Asked live .claim ∧ live.shared.holder = some .c0 ∧ Asked live .release ∧ Asked live .restart)
    ∧ (let s := live.withShared { live.shared with holder := some .c1 };
      Asked s .claim ∧ s.shared.holder = some .c1)
    ∧ (Asked live (.notices true [.claim]) ∧ Asked live (.notices false (List.replicate 13 .skip)) ∧ Asked live (.notices true (List.replicate 14 .skip)))
    ∧ (let c := fun (pending mask : NoticeSet) notice => { live.port .c0 with pendingSet := pending, mask := mask, notice := notice }
      NoticeSet.has (c 2 0 none).pendingSet .lock = true
      ∧ (NoticeSet.has (c 1 0 none).pendingSet .lock = false ∧ NoticeSet.has (c 1 0 none).mask .lock = false)
      ∧ (NoticeSet.has (c 1 2 none).mask .lock = true ∧ (c 1 2 none).notice = none ∧ (c 1 2 (some 1)).notice = some 1)) :=
  ⟨⟨asked rfl rfl, rfl, asked rfl rfl⟩, ⟨asked rfl rfl, rfl, asked rfl rfl, asked rfl rfl⟩, ⟨asked rfl rfl, rfl⟩,
    ⟨asked rfl rfl, asked rfl rfl, asked rfl rfl⟩, by decide, ⟨by decide, by decide⟩, by decide, rfl, rfl⟩

end Sys2Proof.Tests
end

section
/-!
SUPPORT. The frame of every command: the requests taken, the timers, the links and the two resets.
-/

namespace Sys2Proof.Machine

/-! ### The parts a request's action may change -/

/-- The action of a request, whatever its frame and the state it finds, changes the listed parts alone. -/
def ActsWithin (A : List Part) (act : RequestFrame → State → State × Answer) : Prop := ∀ f s, State.Agree A s (act f s).1

section Guards

variable {A : List Part} {act : RequestFrame → State → State × Answer}

theorem asHolder_within (p : Port) (h : ActsWithin A act) : ActsWithin A (asHolder p act) := by
  intro f s
  unfold asHolder
  split
  · exact h f s
  · exact .refl A s

theorem unlessCommit_within (h : ActsWithin A act) : ActsWithin A (unlessCommit act) := by
  intro f s
  unfold unlessCommit
  split
  · exact .refl A s
  · exact h f s

theorem unlessSearching_within (h : ActsWithin A act) : ActsWithin A (unlessSearching act) := by
  intro f s
  unfold unlessSearching
  split
  · exact .refl A s
  · exact h f s

theorem ifLive_within (p : Port) (h : ActsWithin A act) : ActsWithin A (ifLive p act) := by
  intro f s
  unfold ifLive
  split
  · exact h f s
  · exact .refl A s

end Guards

theorem withFields_within {A : List Part} {α : Type} {read : List Byte → Option α} {act : α → State → State × Answer}
    (h : ∀ x s, State.Agree A s (act x s).1) : ActsWithin A (withFields read act) := by
  intro f s
  unfold withFields
  split
  · exact .refl A s
  · exact h _ s

theorem inform_within {A : List Part} {α : Type} {read : List Byte → Option α} (answer : α → State → Answer) :
    ActsWithin A (withFields read fun x => inform (answer x)) := withFields_within fun _ s => .refl A s

/-! ### The requests' own actions -/

theorem setMotion_agree (r : MotionSettings) (s : State) : State.Agree [.mu, .windows, .ports] s (setMotion r s).1 := by
  unfold setMotion
  split
  · exact agree_withMu s _ (by decide)
  · exact .refl _ s

theorem repeatRestart_agree (x : Unit) (s : State) : State.Agree [.ru, .windows, .ports] s (repeatRestart x s).1 :=
  (agree_withRu s _ (by decide)).trans (goLock_agree _ _ (by decide) (by decide))

theorem setRepeat_agree (r : RepeatSettings) (s : State) : State.Agree [.ru, .windows, .ports] s (setRepeat r s).1 := by
  unfold setRepeat
  split
  · exact agree_withRu s _ (by decide)
  · exact .refl _ s

theorem setLane_agree (f : LaneFields) (s : State) : State.Agree [.lanes, .windows, .ports] s (setLane f s).1 := by
  unfold setLane
  split
  · exact .refl _ s
  · split
    · exact updateLane_agree (A := [.lanes, .windows, .ports]) _ (fun l => l.withItems f) s (by decide)
    · exact .refl _ s

theorem pageClear_agree (x : Unit) (s : State) : State.Agree [.cb, .windows, .ports] s (pageClear x s).1 := agree_withCb s _ (by decide)

theorem pageSeek_agree (e : Nat) (s : State) : State.Agree [.cb, .windows, .ports] s (pageSeek e s).1 := by
  unfold pageSeek
  split
  · exact agree_withCb s _ (by decide)
  · exact .refl _ s

theorem pageFill_agree (es : List Correction) (s : State) : State.Agree [.cb, .windows, .ports] s (pageFill es s).1 := by
  unfold pageFill
  split
  · exact agree_withCb s _ (by decide)
  · exact .refl _ s

theorem pageCommit_agree (p : Port) (x : Nat × Nat) (s : State) : State.Agree [.cb, .windows, .ports] s (pageCommit p x s).1 := by
  unfold pageCommit
  split
  · exact .refl _ s
  · split
    · have pend := fun (x : CorrectionBlock) => agree_withCb (A := [.cb, .windows, .ports]) s x (by decide)
      dsimp only
      split
      · exact pend _
      · exact (pend _).trans (completeCommit_agree _ _ (by decide) (by decide))
      · exact (pend _).trans (completeCommit_agree _ _ (by decide) (by decide))
    · exact .refl _ s

theorem levelStart_agree (p : Port) (f : LevelFields) (s : State) :
    State.Agree [.lanes, .le, .windows, .ports] s (levelStart p f s).1 := by
  unfold levelStart
  split
  · exact .refl _ s
  · split
    · dsimp only
      split
      · exact agree_withLe s _ (by decide)
      · exact (endSearch_agree _ _ _ s).mono (by decide)
    · exact .refl _ s

/-- An aborted search stages no offset, so no lane changes (R89). -/
theorem endSearch_abort_agree (x : Search) (w : Line) (s : State) : State.Agree [.le, .windows, .ports] s (endSearch x .abort w s) :=
  (agree_withLe s _ (by decide)).trans (raiseWhere_agree _ _ _ (by decide))

theorem levelAbort_agree (x : Unit) (s : State) : State.Agree [.le, .windows, .ports] s (levelAbort x s).1 := by
  unfold levelAbort
  split
  · exact endSearch_abort_agree _ _ s
  · exact .refl _ s
  · exact .refl _ s

theorem setStore_agree (f : StoreFields) (s : State) : State.Agree [.bsc, .windows, .ports, .shared] s (setStore f s).1 := by
  unfold setStore
  split
  · have stored := fun (x : SharedRecord) (y : BandStore) =>
      (agree_withShared (A := [.bsc, .windows, .ports, .shared]) s x (by decide)).trans (agree_withBsc _ y (by decide))
    exact agree_ite (fun _ => (stored _ _).trans (judgePressure_agree _ (by decide) (by decide))) fun _ => stored _ _
  · exact .refl _ s

theorem windowOpen_agree (p : Port) (f : WindowFields) (s : State) : State.Agree linkParts s (windowOpen p f s).1 := by
  unfold windowOpen
  split
  · split
    · exact .refl _ s
    · exact putWindow_agree _ _ s (by decide)
  · exact .refl _ s

theorem windowClose_agree (p : Port) (id : Nat) (s : State) : State.Agree deliveryParts s (windowClose p id s).1 := by
  unfold windowClose
  split
  · exact .refl _ s
  · exact closeWindow_agree id s

theorem windowReturn_agree (p : Port) (id : Nat) (s : State) : State.Agree linkParts s (windowReturn p id s).1 := by
  unfold windowReturn
  split
  · exact .refl _ s
  · split
    · exact putWindow_agree _ _ s (by decide)
    · exact .refl _ s

theorem grantCredit_agree (p : Port) (n : Nat) (s : State) : State.Agree linkParts s (grantCredit p n s).1 := by
  unfold grantCredit
  split
  · exact agree_setPort s _ _ (by decide)
  · exact .refl _ s

theorem takeClaim_agree (p : Port) (x : Unit) (s : State) : State.Agree [.windows, .ports, .shared] s (takeClaim p x s).1 := by
  unfold takeClaim
  split
  · exact (agree_withShared s _ (by decide)).trans (raiseWhere_agree _ _ _ (by decide))
  · split <;> exact .refl _ s

theorem releaseClaim_agree (p : Port) (x : Unit) (s : State) : State.Agree [.windows, .ports, .shared] s (releaseClaim p x s).1 := by
  unfold releaseClaim
  split
  · exact (agree_withShared s _ (by decide)).trans (raiseWhere_agree _ _ _ (by decide))
  · exact .refl _ s

theorem setNotices_agree (p : Port) (x : Bool × List NoticeKind) (s : State) : State.Agree linkParts s (setNotices p x s).1 := by
  unfold setNotices
  split
  · exact agree_setPort s _ _ (by decide)
  · exact .refl _ s

theorem takeStatus_agree (p : Port) (x : Unit) (s : State) : State.Agree linkParts s (takeStatus p x s).1 := agree_setPort s _ _ (by decide)

theorem beginRestart_agree (p : Port) (x : Unit) (s : State) : State.Agree [.windows, .ports, .shared] s (beginRestart p x s).1 :=
  agree_withShared s _ (by decide)

theorem placeMarker_agree (p : Port) (o : Output) (t : Line) (width : Nat) (s : State) :
    State.Agree [.windows, .ports, .mku] s (placeMarker p o t width s).1 := by
  unfold placeMarker
  dsimp only
  split
  · exact agree_withMku s _ (by decide)
  · split
    · exact agree_withMku s _ (by decide)
    · exact .refl _ s

theorem markOut_agree (p : Port) (f : MarkFields) (s : State) : State.Agree [.windows, .ports, .mku] s (markOut p f s).1 := by
  have guarded : ∀ (c : Prop) [Decidable c] (code : ResponseCode) (r : State × Answer), State.Agree [.windows, .ports, .mku] s r.1 →
      State.Agree [.windows, .ports, .mku] s (if c then refuse code s else r).1 := by
    intro c _ code r h
    split
    · exact .refl _ s
    · exact h
  unfold markOut
  split
  · split
    · exact .refl _ s
    · exact guarded _ _ _ (guarded _ _ _ (guarded _ _ _ (placeMarker_agree _ _ _ _ s)))
  · exact .refl _ s

theorem setMarkerOut_agree (f : MarkerFields) (s : State) : State.Agree [.windows, .ports, .mku] s (setMarkerOut f s).1 := by
  unfold setMarkerOut
  split
  · exact agree_withMku s _ (by decide)
  · exact .refl _ s

/-! ### Resets and links -/

/-- The parts that a reset sets: all but the queue of commands, the clock and the store's bytes. -/
def resetParts : List Part := [.mu, .ru, .lanes, .cb, .le, .bsc, .windows, .ports, .shared, .mku]

theorem agree_of_kept {s t : State} (pending : t.pending = s.pending) (now : t.now = s.now) (dram : t.dram = s.dram) :
    State.Agree resetParts s t where
  pending := fun _ => pending
  now := fun _ => now
  mu := fun n => absurd (by decide) n
  ru := fun n => absurd (by decide) n
  lanes := fun n => absurd (by decide) n
  cb := fun n => absurd (by decide) n
  le := fun n => absurd (by decide) n
  bsc := fun n => absurd (by decide) n
  dram := fun _ => dram
  windows := fun n => absurd (by decide) n
  ports := fun n => absurd (by decide) n
  shared := fun n => absurd (by decide) n
  mku := fun n => absurd (by decide) n

theorem powerOnReset_agree (inputs : EncInputs) (s : State) : State.Agree resetParts s (powerOnReset inputs s) := agree_of_kept rfl rfl rfl

theorem restartReset_agree (s : State) : State.Agree resetParts s (restartReset s) := agree_of_kept rfl rfl rfl

theorem execFrameCompletion_agree (p : Port) (s : State) : ∃ t, execFrameCompletion p s = .next t ∧ State.Agree resetParts s t := by
  have sent : State.Agree resetParts s (settle (s.setPort p { s.port p with outbound := none })) :=
    (agree_setPort s _ _ (by decide)).trans ((settle_agree _).mono (by decide))
  unfold execFrameCompletion
  split
  · split
    · exact ⟨_, rfl, restartReset_agree s⟩
    · exact ⟨_, rfl, sent⟩
  · exact ⟨_, rfl, sent⟩
  · exact ⟨s, rfl, .refl _ s⟩
  · exact ⟨s, rfl, .refl _ s⟩

theorem execStripCompletion_agree (p : Port) (s : State) : ∃ t, execStripCompletion p s = .next t ∧ State.Agree deliveryParts s t := by
  unfold execStripCompletion
  split
  · exact ⟨_, rfl, (((agree_setPort s _ _ (by decide)).trans (releaseSlot_agree _ _ (by decide) (by decide))).trans
      (closingStripEnd_agree _ _ (by decide))).trans ((settle_agree _).mono (by decide))⟩
  all_goals exact ⟨s, rfl, .refl _ s⟩

theorem execStallTimerExpiry_agree (p : Port) (s : State) :
    ∃ t, execStallTimerExpiry p s = .next t ∧ State.Agree [.now, .bsc, .windows, .ports] s t := by
  unfold execStallTimerExpiry
  split
  · exact ⟨_, rfl, ((((agree_withNow s _ (by decide)).trans (agree_setPort _ _ _ (by decide))).trans
      (raiseWhere_agree _ _ _ (by decide))).trans ((failPort_agree _ _ _).mono (by decide))).trans ((settle_agree _).mono (by decide))⟩
  · exact ⟨s, rfl, .refl _ s⟩

theorem dropClaim_agree (p : Port) (s : State) : State.Agree [.ports, .shared] s (dropClaim p s) :=
  agree_ite (fun _ => (agree_withShared s _ (by decide)).trans (raiseWhere_agree _ _ _ (by decide))) fun _ => .refl _ s

theorem execSteeringLinkLoss_agree (p : Port) (s : State) : ∃ t, execSteeringLinkLoss p s = .next t ∧ State.Agree resetParts s t := by
  have reset : State.Agree resetParts s (restartReset (s.setPort p { s.port p with linkUp := false })) := agree_of_kept rfl rfl rfl
  have failed : State.Agree deliveryParts s (failPort p true (cutLink p s)) := (cutLink_agree p s).trans (failPort_agree p true _)
  have lost := ((((failed.mono (by decide)).trans (agree_setPort _ p (downPort ((failPort p true (cutLink p s)).port p)) (by decide))).trans
    ((dropClaim_agree p _).mono (by decide))).trans ((settle_agree _).mono (by decide)) : State.Agree resetParts s _)
  unfold execSteeringLinkLoss
  split
  · exact ⟨s, rfl, .refl _ s⟩
  all_goals
    split
    · exact ⟨_, rfl, reset⟩
    · exact ⟨_, rfl, lost⟩

theorem execSteeringLinkUp_agree (p : Port) (s : State) : ∃ t, execSteeringLinkUp p s = .next t ∧ State.Agree [.ports] s t := by
  unfold execSteeringLinkUp
  dsimp only
  split
  · exact ⟨_, rfl, agree_setPort s _ _ (by decide)⟩
  · exact ⟨s, rfl, .refl _ s⟩
  · exact ⟨s, rfl, .refl _ s⟩

theorem execRequestArrival_agree (p : Port) (bytes : List Byte) (s : State) :
    ∃ t, execRequestArrival p bytes s = .next t ∧ State.Agree linkParts s t := by
  have accepted : ∀ f, State.Agree linkParts s (acceptFrame p f s) := fun f =>
    agree_ite (fun _ => agree_setPort s _ _ (by decide)) fun _ =>
      agree_ite (fun _ => agree_setPort s _ _ (by decide)) fun _ => agree_setPort s _ _ (by decide)
  unfold execRequestArrival
  split
  · split
    · exact ⟨_, rfl, (agree_setPort s _ _ (by decide)).trans (settle_agree _)⟩
    · exact ⟨_, rfl, (accepted _).trans (settle_agree _)⟩
  · exact ⟨s, rfl, .refl _ s⟩

/-! ### Timers -/

theorem execGateReopen_agree (s : State) : ∃ t, execGateReopen s = .next t ∧ State.Agree [.now, .mu] s t := by
  unfold execGateReopen
  split
  · exact ⟨s, rfl, .refl _ s⟩
  · exact ⟨_, rfl, (agree_withNow s _ (by decide)).trans (agree_withMu _ _ (by decide))⟩

theorem execStopTimerExpiry_agree (s : State) :
    ∃ t, execStopTimerExpiry s = .next t ∧ State.Agree [.now, .mu, .bsc, .windows, .ports] s t := by
  unfold execStopTimerExpiry
  split
  · exact ⟨s, rfl, .refl _ s⟩
  · have stopped := fun t (m : MotionUnit) =>
      (agree_withNow (A := [.now, .mu, .bsc, .windows, .ports]) s t (by decide)).trans (agree_withMu _ m (by decide))
    exact ⟨_, rfl, (((stopped _ _).trans ((stopSeal_agree _).mono (by decide))).trans
      (raiseWhere_agree _ _ _ (by decide))).trans ((settle_agree _).mono (by decide))⟩

theorem execPulseEnd_agree (o : Output) (s : State) : ∃ t, execPulseEnd o s = .next t ∧ State.Agree [.now, .mku] s t := by
  unfold execPulseEnd
  dsimp only
  split
  · exact ⟨s, rfl, .refl _ s⟩
  · exact ⟨_, rfl, (agree_withNow s _ (by decide)).trans (agree_withMku _ _ (by decide))⟩

/-! ### Every command -/

theorem subset_of_all {A B : List Part} (h : (A.all fun x => decide (x ∈ B)) = true) : ∀ x ∈ A, x ∈ B := fun x m =>
  of_decide_eq_true (List.all_eq_true.mp h x m)

/-- An event with the end of the event: the parts of the event and those of the links. -/
theorem settle_agree_of {A B : List Part} {s t : State} (h : State.Agree A s t) (sub : (A.all fun x => decide (x ∈ B)) = true)
    (links : (linkParts.all fun x => decide (x ∈ B)) = true) :
    ∃ u, (Host.Outcome.next (settle t) : Host.Outcome State Fault Refusal) = .next u ∧ State.Agree B s u :=
  ⟨_, rfl, (h.mono (subset_of_all sub)).trans ((settle_agree t).mono (subset_of_all links))⟩

/-- A request taken: the parts of its action, which hold those of the links. -/
theorem request_agree {A : List Part} {p : Port} {kind : Option RequestKind} {act : RequestFrame → State → State × Answer} (s : State)
    (links : (linkParts.all fun x => decide (x ∈ A)) = true) (h : ActsWithin A act) :
    ∃ t, takeRequest p kind act s = .next t ∧ State.Agree A s t := takeRequest_agree p kind act s (subset_of_all links) h

/-- Settles O3: each command by the frame of its own operation, a request by the frame of its action. -/
theorem commandFrames : Obligations.CommandFrames := by
  unfold Obligations.CommandFrames
  intro c s
  cases c with
  | powerOn inputs => exact ⟨_, rfl, powerOnReset_agree inputs s⟩
  | encoderCount inputs => exact settle_agree_of (encoderChange_agree inputs s) rfl rfl
  | gateReopen => exact execGateReopen_agree s
  | stopTimerExpiry => exact execStopTimerExpiry_agree s
  | speedGateEnd => exact ⟨_, rfl, (agree_withNow (A := [.now, .mu]) s _ (by decide)).trans (agree_withMu _ _ (by decide))⟩
  | setMotion p => exact request_agree s rfl (asHolder_within p (withFields_within setMotion_agree))
  | chainExpiry => exact ⟨_, rfl, chainExpiry_agree (A := [.ru]) _ s (by decide)⟩
  | markEdge edge => exact settle_agree_of (markTransition_agree edge s (A := [.ru, .windows, .ports]) (by decide) (by decide)) rfl rfl
  | repeatRestart p => exact request_agree s rfl (asHolder_within p (withFields_within repeatRestart_agree))
  | setRepeat p => exact request_agree s rfl (asHolder_within p (withFields_within setRepeat_agree))
  | snapshot p => exact request_agree s rfl (inform_within _)
  | log p => exact request_agree s rfl (inform_within _)
  | setLane p => exact request_agree s rfl (asHolder_within p (withFields_within setLane_agree))
  | lineArrival k frame => exact settle_agree_of (arriveLine_agree k frame s) rfl rfl
  | laneLinkLoss k => exact settle_agree_of (loseLaneLink_agree k s) rfl rfl
  | laneLinkReturn k => exact settle_agree_of (returnLaneLink_agree k s) rfl rfl
  | laneInfo p => exact request_agree s rfl (inform_within _)
  | pageClear p => exact request_agree s rfl (asHolder_within p (unlessCommit_within (withFields_within pageClear_agree)))
  | pageSeek p => exact request_agree s rfl (asHolder_within p (unlessCommit_within (withFields_within pageSeek_agree)))
  | pageFill p => exact request_agree s rfl (asHolder_within p (unlessCommit_within (withFields_within pageFill_agree)))
  | pageCommit p => exact request_agree s rfl (asHolder_within p (unlessCommit_within (withFields_within (pageCommit_agree p))))
  | tableRead p => exact request_agree s rfl (inform_within _)
  | levelStart p => exact request_agree s rfl (asHolder_within p (unlessSearching_within (withFields_within (levelStart_agree p))))
  | spanEnd => exact settle_agree_of (levelSpan_agree _ s) rfl rfl
  | levelAbort p => exact request_agree s rfl (asHolder_within p (withFields_within levelAbort_agree))
  | levelResults p => exact request_agree s rfl (inform_within _)
  | setStore p => exact request_agree s rfl (asHolder_within p (withFields_within setStore_agree))
  | windowOpen p => exact request_agree s rfl (ifLive_within p (withFields_within (windowOpen_agree p)))
  | windowClose p => exact request_agree s rfl (withFields_within (windowClose_agree p))
  | windowReturn p => exact request_agree s rfl (withFields_within (windowReturn_agree p))
  | windowInfo p => exact request_agree s rfl (inform_within _)
  | steeringLinkUp p => exact execSteeringLinkUp_agree p s
  | grant p => exact request_agree s rfl (withFields_within (grantCredit_agree p))
  | frameCompletion p => exact execFrameCompletion_agree p s
  | stripCompletion p => exact execStripCompletion_agree p s
  | stallTimerExpiry p => exact execStallTimerExpiry_agree p s
  | steeringLinkLoss p => exact execSteeringLinkLoss_agree p s
  | requestArrival p bytes => exact execRequestArrival_agree p bytes s
  | badKind p => exact request_agree s rfl fun _ t => .refl _ t
  | claim p => exact request_agree s rfl (withFields_within (takeClaim_agree p))
  | release p => exact request_agree s rfl (withFields_within (releaseClaim_agree p))
  | notices p => exact request_agree s rfl (withFields_within (setNotices_agree p))
  | status p => exact request_agree s rfl (withFields_within (takeStatus_agree p))
  | restart p => exact request_agree s rfl (asHolder_within p (withFields_within (beginRestart_agree p)))
  | markOut p => exact request_agree s rfl (ifLive_within p (withFields_within (markOut_agree p)))
  | setMarkerOut p => exact request_agree s rfl (asHolder_within p (withFields_within setMarkerOut_agree))
  | pulseEnd o => exact execPulseEnd_agree o s

end Sys2Proof.Machine
end

section
/-!
SUPPORT. What an event leaves of the ports: operations that only raise notices, operations under which the pending sets grow, and the
ports after the end of an event.
-/

namespace Sys2Proof.Machine

/-! ### Operations that only raise notices -/

/-- Of the ports, the pending sets and the waiting notice frames alone may change, and no kind leaves a pending set (R171). -/
def OnlyRaises (s t : State) : Prop :=
  ∀ p, ∃ pending notice, t.port p = { s.port p with pendingSet := pending, notice := notice }
    ∧ ∀ k, NoticeSet.has (s.port p).pendingSet k = true → NoticeSet.has pending k = true

theorem OnlyRaises.of_ports {s t : State} (h : t.ports = s.ports) : OnlyRaises s t := fun p =>
  ⟨(s.port p).pendingSet, (s.port p).notice, by simp [State.port, h], fun _ => id⟩

theorem OnlyRaises.refl (s : State) : OnlyRaises s s := .of_ports rfl

theorem OnlyRaises.trans {s t u : State} (h : OnlyRaises s t) (g : OnlyRaises t u) : OnlyRaises s u := by
  intro p
  obtain ⟨a, b, ht, ha⟩ := h p
  obtain ⟨c, d, hu, hc⟩ := g p
  rw [ht] at hu hc
  exact ⟨c, d, hu, fun k hk => hc k (ha k hk)⟩

theorem OnlyRaises.isUp {s t : State} (h : OnlyRaises s t) (p : Port) : (t.port p).isUp = (s.port p).isUp := by
  obtain ⟨_, _, e, _⟩ := h p
  rw [e]; rfl

theorem OnlyRaises.kept {s t : State} (h : OnlyRaises s t) (p : Port) :
    ∃ pending notice, t.port p = { s.port p with pendingSet := pending, notice := notice } := by
  obtain ⟨a, b, e, _⟩ := h p
  exact ⟨a, b, e⟩

theorem onlyRaises_foldl {α : Type} {f : State → α → State} (h : ∀ s x, OnlyRaises s (f s x)) (l : List α) :
    ∀ s, OnlyRaises s (l.foldl f s) := by
  induction l with
  | nil => exact OnlyRaises.refl
  | cons x l ih => exact fun s => (h s x).trans (ih _)

theorem onlyRaises_ite {c : Prop} [Decidable c] {s t u : State} (h : OnlyRaises s t) (g : OnlyRaises s u) :
    OnlyRaises s (if c then t else u) := by
  split
  · exact h
  · exact g

theorem raiseWhere_raises (sel : Port → ConsumerPort → Bool) (k : NoticeKind) (s : State) : OnlyRaises s (raiseWhere sel k s) := by
  intro p
  rw [raiseWhere_port]
  split
  · refine ⟨_, _, raisePort_spec k _, fun j hj => ?_⟩
    rw [NoticeSet.has_add, hj, Bool.or_true]
  · exact OnlyRaises.refl s p

/-- A raising at every LIVE or STALLED port leaves the kind pending at each of them (R170, R171). -/
theorem raiseUp_pending (k : NoticeKind) (s : State) : PendingUp k s (raiseUp k s) := by
  intro p up
  show NoticeSet.has ((raiseWhere _ k s).port p).pendingSet k = true
  rw [raiseWhere_pendingSet, if_pos up, NoticeSet.has_add]
  simp

theorem raiseUp_raisedUp (k : NoticeKind) (s : State) : RaisedUp k s (raiseUp k s) := fun p => raiseWhere_pendingSet _ k s p

theorem goLock_raises (l : LockState) (s : State) : OnlyRaises s (goLock l s) :=
  onlyRaises_ite (.refl s) (raiseWhere_raises _ _ _)

theorem applySettings_raises (s : State) : OnlyRaises s (applySettings s) := by
  unfold applySettings
  split
  · exact .refl s
  · dsimp only
    split
    · exact goLock_raises _ _
    · exact goLock_raises _ _
    · exact .of_ports rfl

theorem openRepeat_raises (w : Line) (cause : Option RestartKind) (s : State) : OnlyRaises s (openRepeat w cause s) :=
  .trans (applySettings_raises (s.withRu (closeAndAppend w cause.isSome s.ru))) (raiseWhere_raises _ _ _)

theorem phaseAdvance_raises (w : Line) (s : State) : OnlyRaises s (phaseAdvance w s) :=
  onlyRaises_ite (.of_ports rfl) (openRepeat_raises _ _ _)

theorem restartStep_raises (w : Line) (s : State) : OnlyRaises s (restartStep w s) := by
  unfold restartStep
  split
  · exact .refl s
  next kind _ =>
    have applied : OnlyRaises s (if s.ru.newest.start = w then s.withRu (recordLock (labelRestart kind s.ru))
        else openRepeat w (some kind) s) := onlyRaises_ite (.of_ports rfl) (openRepeat_raises w _ s)
    exact applied.trans (.of_ports rfl)

theorem windowEnd_raises (w : Line) (s : State) : OnlyRaises s (windowEnd w s) :=
  onlyRaises_ite (onlyRaises_ite (goLock_raises _ _) (goLock_raises _ _)) (.refl s)

theorem chainExpiry_raises (w : Line) (s : State) : OnlyRaises s (chainExpiry w s) :=
  .of_ports ((chainExpiry_agree (A := [.ru]) w s (by decide)).ports (by decide))

theorem repeatDueLine_raises (w : Line) (s : State) : OnlyRaises s (repeatDueLine w s) :=
  (((phaseAdvance_raises w s).trans (restartStep_raises w _)).trans (windowEnd_raises w _)).trans (chainExpiry_raises w _)

theorem overrunIndication_raises (s : State) : OnlyRaises s (overrunIndication s) := by
  unfold overrunIndication
  split
  · exact .refl s
  all_goals exact goLock_raises _ _

theorem markerDueLine_raises (w : Line) (s : State) : OnlyRaises s (markerDueLine w s) :=
  onlyRaises_foldl (f := fireEntry) (fun _ _ => raiseWhere_raises _ _ _) _ _

theorem judgePressure_raises (s : State) : OnlyRaises s (judgePressure s) :=
  onlyRaises_ite (onlyRaises_ite (raiseWhere_raises _ _ _) (.refl s)) (onlyRaises_ite (raiseWhere_raises _ _ _) (.refl s))

theorem freeSlot_raises (slot : Nat) (s : State) : OnlyRaises s (freeSlot slot s) := judgePressure_raises _

theorem completeCommit_raises (k : Lane) (s : State) : OnlyRaises s (completeCommit k s) := by
  unfold completeCommit
  split
  · exact .refl s
  · exact onlyRaises_ite (raiseWhere_raises _ _ _) (.refl s)

theorem endSearch_raises (x : Search) (cause : EndCause) (w : Line) (s : State) : OnlyRaises s (endSearch x cause w s) :=
  .trans (onlyRaises_ite (c := cause ≠ .abort ∧ x.request.apply = true ∧ isFound ((x.results cause).get x.request.reference) = true)
    (t := stageOffsets (x.results cause) s) (.of_ports rfl) (.refl s)) (raiseWhere_raises _ _ _)

theorem updateRecord_raises (x : Search) (k : Lane) (r : SearchRecord) (s : State) : OnlyRaises s (updateRecord x k r s) :=
  onlyRaises_ite (.of_ports rfl) (endSearch_raises _ _ _ s)

theorem levelLine_raises (k : Lane) (stamp : Line) (offset : Nat) (samples : Option (List Byte)) (s : State) :
    OnlyRaises s (levelLine k stamp offset samples s) := by
  unfold levelLine
  split
  · exact .refl s
  · exact .refl s
  · split
    · exact .refl s
    · exact onlyRaises_ite (onlyRaises_ite (updateRecord_raises _ _ _ s) (.of_ports rfl)) (.refl s)

theorem levelLeavesRun_raises (k : Lane) (s : State) : OnlyRaises s (levelLeavesRun k s) := by
  unfold levelLeavesRun
  split
  · exact .refl s
  · exact .refl s
  · split
    · exact .refl s
    · exact onlyRaises_ite (updateRecord_raises _ _ _ s) (.refl s)

theorem levelSpan_raises (w : Line) (s : State) : OnlyRaises s (levelSpan w s) := by
  unfold levelSpan
  split
  · exact .refl s
  · exact .refl s
  · exact onlyRaises_ite (endSearch_raises _ _ _ s) (.refl s)

/-! ### Operations under which the pending sets grow -/

/-- Every port keeps its state, and no kind leaves a pending set; the rest of a port may change. -/
def PendingGrows (s t : State) : Prop :=
  ∀ p, (t.port p).state = (s.port p).state
    ∧ ∀ k, NoticeSet.has (s.port p).pendingSet k = true → NoticeSet.has (t.port p).pendingSet k = true

theorem PendingGrows.refl (s : State) : PendingGrows s s := fun _ => ⟨rfl, fun _ => id⟩

theorem PendingGrows.of_ports {s t : State} (h : t.ports = s.ports) : PendingGrows s t := fun p => by
  simp [State.port, h]

theorem PendingGrows.trans {s t u : State} (h : PendingGrows s t) (g : PendingGrows t u) : PendingGrows s u := fun p =>
  ⟨(g p).1.trans (h p).1, fun k hk => (g p).2 k ((h p).2 k hk)⟩

theorem PendingGrows.isUp {s t : State} (h : PendingGrows s t) (p : Port) : (t.port p).isUp = (s.port p).isUp := by
  rw [ConsumerPort.isUp, (h p).1]; rfl

theorem OnlyRaises.grows {s t : State} (h : OnlyRaises s t) : PendingGrows s t := by
  intro p
  obtain ⟨a, b, e, grow⟩ := h p
  rw [e]
  exact ⟨rfl, grow⟩

/-- A kind that is pending at the ports stays so while the pending sets grow. -/
theorem PendingUp.grow {k : NoticeKind} {s t u : State} (h : PendingUp k s t) (g : PendingGrows t u) : PendingUp k s u :=
  fun p up => (g p).2 k (h p up)

theorem PendingUp.of_isUp {k : NoticeKind} {s t u : State} (h : PendingUp k t u) (up : ∀ p, (t.port p).isUp = (s.port p).isUp) :
    PendingUp k s u := fun p hp => h p ((up p).trans hp)

theorem grows_foldl {α : Type} {f : State → α → State} (h : ∀ s x, PendingGrows s (f s x)) (l : List α) :
    ∀ s, PendingGrows s (l.foldl f s) := by
  induction l with
  | nil => exact PendingGrows.refl
  | cons x l ih => exact fun s => (h s x).trans (ih _)

theorem grows_ite {c : Prop} [Decidable c] {s t u : State} (h : PendingGrows s t) (g : PendingGrows s u) :
    PendingGrows s (if c then t else u) := by
  split
  · exact h
  · exact g

/-- A port replaced by one with the same state and pending set. -/
theorem setPort_grows (s : State) (p : Port) (c : ConsumerPort) (state : c.state = (s.port p).state)
    (pending : c.pendingSet = (s.port p).pendingSet) : PendingGrows s (s.setPort p c) := by
  intro q
  rw [State.port_setPort]
  split
  next e => subst e; rw [pending]; exact ⟨state, fun _ => id⟩
  · exact ⟨rfl, fun _ => id⟩

theorem withBsc_grows (s : State) (x : BandStore) : PendingGrows s (s.withBsc x) := .of_ports rfl

theorem withDram_grows (s : State) (x : List Host.Cell) : PendingGrows s (s.withDram x) := .of_ports rfl

theorem setQueue_state (c : ConsumerPort) (cls : DeliveryClass) (q : List Entry) : (c.setQueue cls q).state = c.state := by
  cases cls <;> rfl

theorem setQueue_pendingSet (c : ConsumerPort) (cls : DeliveryClass) (q : List Entry) : (c.setQueue cls q).pendingSet = c.pendingSet := by
  cases cls <;> rfl

theorem matchBand_grows (slot : Nat) (b : Band) (s : State) : PendingGrows s (matchBand slot b s).1 := by
  suffices h : ∀ (ids : List Nat) (acc : State × Nat), PendingGrows acc.1 (ids.foldl (matchWindow slot b) acc).1 from h _ (s, 0)
  intro ids
  induction ids with
  | nil => exact fun acc => .refl _
  | cons id ids ih =>
    intro acc
    refine .trans ?_ (ih _)
    unfold matchWindow
    split
    · exact .refl _
    · split
      · split
        · exact setPort_grows _ _ _ (setQueue_state _ _ _) (setQueue_pendingSet _ _ _)
        next w _ _ _ =>
          exact .trans (t := putWindow id { w with gap := true, dropped := w.dropped + 1 } acc.1) (.of_ports rfl)
            (setPort_grows _ _ _ rfl rfl)
      · exact .refl _

theorem sealBand_grows (k : Lane) (stop : Bool) (s : State) : PendingGrows s (sealBand k stop s) := by
  unfold sealBand
  split
  · exact .refl s
  · split
    · exact .of_ports rfl
    next slot _ _ _ _ =>
      have matched : ∀ b, PendingGrows s (matchBand slot b
          (clearFilling k (s.withBsc { s.bsc with sealSequence := s.bsc.sealSequence + 1 }))).1 := fun b =>
        .trans ((withBsc_grows s _).trans (withBsc_grows _ _)) (matchBand_grows _ _ _)
      dsimp only
      exact grows_ite ((matched _).trans (freeSlot_raises _ _).grows) ((matched _).trans (withBsc_grows _ _))

theorem extendBand_grows (slot : Nat) (b : Band) (x : Placement) (s : State) : PendingGrows s (extendBand slot b x s) := by
  unfold extendBand
  extract_lets t
  have written : PendingGrows s t := by
    unfold t
    split
    · exact withBsc_grows s _
    · exact (withBsc_grows s _).trans (withDram_grows _ _)
  exact grows_ite (written.trans (sealBand_grows _ _ _)) written

theorem openBand_grows (x : Placement) (s : State) : PendingGrows s (openBand x s) := by
  unfold openBand
  split
  · exact withBsc_grows s _
  · exact ((withBsc_grows s _).trans (judgePressure_raises _).grows).trans (extendBand_grows _ _ _ _)

theorem place_grows (x : Placement) (s : State) : PendingGrows s (place x s) := by
  have next : PendingGrows s (openBand x (sealBand x.lane false s)) := (sealBand_grows _ _ s).trans (openBand_grows x _)
  unfold place
  split
  · exact openBand_grows x s
  · split
    · exact next
    · exact grows_ite (extendBand_grows _ _ x s) next

theorem updateLane_grows (k : Lane) (f : LaneFrontEnd → LaneFrontEnd) (s : State) : PendingGrows s (updateLane k f s) := .of_ports rfl

theorem runLine_grows (k : Lane) (w : Line) (offset : Nat) (b : LineBody) (s : State) : PendingGrows s (runLine k w offset b s) := by
  unfold runLine
  dsimp only
  refine grows_ite (updateLane_grows _ _ _) ?_
  split
  · exact updateLane_grows _ _ _
  · exact ((updateLane_grows k _ s).trans (place_grows _ _)).trans (levelLine_raises _ _ _ _ _).grows

theorem lineEvent_grows (k : Lane) (w : Line) (offset : Nat) (mode : ActiveMode) (b : LineBody) (s : State) :
    PendingGrows s (lineEvent k w offset mode b s) := by
  have begun : PendingGrows s (updateLane k applyImmediate (completeCommit k s)) :=
    (completeCommit_raises k s).grows.trans (updateLane_grows _ _ _)
  unfold lineEvent
  dsimp only
  split
  · exact begun.trans (runLine_grows _ _ _ _ _)
  · exact begun.trans (updateLane_grows _ _ _)

theorem removeOldest_grows (k : Lane) (b : LineBody) (s : State) : PendingGrows s (removeOldest k b s) := by
  unfold removeOldest
  split
  · exact .refl s
  next e rest _ =>
    have event : PendingGrows s (lineEvent k e.wln e.offset e.mode b
        (updateLane k (fun l => { l with fifo := rest, drain := l.drain - 1 }) s)) :=
      (updateLane_grows k _ s).trans (lineEvent_grows _ _ _ _ _ _)
    exact grows_ite (event.trans (sealBand_grows _ _ _)) event

theorem loseOldest_grows (k : Lane) (s : State) : PendingGrows s (loseOldest k s) :=
  (removeOldest_grows k _ s).trans (updateLane_grows _ _ _)

theorem flushCounted_grows (k : Lane) (n : Nat) : ∀ s, PendingGrows s (flushCounted k n s) := by
  induction n with
  | zero => exact PendingGrows.refl
  | succ n ih => exact fun s => (loseOldest_grows k s).trans (ih _)

theorem changeState_raises (k : Lane) (new : LaneState) (s : State) : OnlyRaises s (changeState k new s) := by
  unfold changeState
  dsimp only
  have first : OnlyRaises s (if (s.lane k).state.isFault ≠ new.isFault
      then raiseUp .lane (updateLane k (fun l => { l with state := new }) s) else updateLane k (fun l => { l with state := new }) s) :=
    onlyRaises_ite (raiseWhere_raises _ _ _) (.of_ports rfl)
  have second := fun (c : Prop) [Decidable c] => onlyRaises_ite (c := c) (first.trans (completeCommit_raises k _)) first
  exact onlyRaises_ite ((second _).trans (levelLeavesRun_raises k _)) (second _)

theorem modeActions_grows (k : Lane) (old new : Option ActiveMode) (s : State) : PendingGrows s (modeActions k old new s) := by
  have entry : ∀ (c : Prop) [Decidable c] (f : LaneFrontEnd → LaneFrontEnd) (s : State),
      PendingGrows s (if c then updateLane k f s else s) := fun c _ f s => grows_ite (updateLane_grows k f s) (.refl s)
  have entered := fun (s : State) =>
    (entry (new = some .run ∧ old ≠ some .run) (fun l => { l with lastStamp := none, bandRn := none }) s).trans
    (entry (new = some .check ∧ old ≠ some .check) (fun l => { l with checker := { l.checker with inStep := false, cleanRun := 0 } }) _)
  unfold modeActions
  dsimp only
  refine grows_ite (grows_ite ?_ ?_) (entered s)
  · exact ((entered s).trans (updateLane_grows _ _ _)).trans (sealBand_grows _ _ _)
  · exact (entered s).trans (updateLane_grows _ _ _)

theorem sourceActions_grows (k : Lane) (new : Source) (s : State) : PendingGrows s (sourceActions k new s) :=
  grows_ite (.refl s) (((flushCounted_grows k _ s).trans (updateLane_grows _ _ _)).trans (sealBand_grows _ _ _))

theorem applyModeItem_grows (k : Lane) (m : LaneMode) (src : Source) (s : State) : PendingGrows s (applyModeItem k m src s) :=
  (((updateLane_grows k _ s).trans (changeState_raises k _ _).grows).trans (modeActions_grows _ _ _ _)).trans (sourceActions_grows _ _ _)

theorem applyRepeatStart_grows (k : Lane) (s : State) : PendingGrows s (applyRepeatStart k s) := by
  unfold applyRepeatStart
  dsimp only
  split
  · exact updateLane_grows _ _ _
  · exact (updateLane_grows _ _ _).trans (applyModeItem_grows _ _ _ _)

theorem handleTrigger_grows (k : Lane) (w : Line) (s : State) : PendingGrows s (handleTrigger k w s) := by
  unfold handleTrigger
  dsimp only
  split
  · exact .refl s
  · exact lineEvent_grows _ _ _ _ _ s
  · split
    · exact lineEvent_grows _ _ _ _ _ s
    · exact lineEvent_grows _ _ _ _ _ s
    · exact .trans (grows_ite (loseOldest_grows k s) (.refl s)) (updateLane_grows _ _ _)

theorem triggerLanes_grows (w : Line) (mark : Bool) (s : State) : PendingGrows s (triggerLanes w mark s) :=
  grows_foldl (f := takeTrigger w mark)
    (fun s k => .trans (grows_ite (applyRepeatStart_grows k s) (.refl s)) (handleTrigger_grows k w _)) allLanes s

/-! ### The ports after the end of an event -/

/-- What every arbiter leaves as it is at every port: all but the frames that wait or are sent, the queues, the credit and the count of
strips sent. -/
theorem arbitrate_kept (s : State) (p q : Port) : ∃ responses notice outbound essential sheddable credit sent,
    (arbitrate s p).port q = { s.port q with
      responses := responses, notice := notice, outbound := outbound, essential := essential, sheddable := sheddable
      credit := credit, sent := sent } := by
  by_cases h : q = p
  · subst h
    unfold arbitrate
    dsimp only
    split
    · exact ⟨_, _, _, _, _, _, _, rfl⟩
    · exact ⟨_, _, _, _, _, _, _, rfl⟩
    · split
      · exact ⟨_, _, _, _, _, _, _, State.port_setPort_self _ _ _⟩
      · exact ⟨_, _, _, _, _, _, _, State.port_setPort_self _ _ _⟩
      · split
        · exact ⟨_, _, _, _, _, _, _, rfl⟩
        · split
          · unfold beginStrip
            split
            · split
              · exact ⟨_, _, _, _, _, _, _, rfl⟩
              · rw [State.port_setPort_self]
                unfold ConsumerPort.dropEntry
                split <;> exact ⟨_, _, _, _, _, _, _, rfl⟩
            · exact ⟨_, _, _, _, _, _, _, rfl⟩
          · exact ⟨_, _, _, _, _, _, _, rfl⟩
  · rw [(arbitrate_spec s p).2.1 q h]
    exact ⟨_, _, _, _, _, _, _, rfl⟩

theorem judgeStall_kept (s : State) (c : ConsumerPort) : ∃ stall, judgeStall s c = { c with stall := stall } := by
  unfold judgeStall
  split
  · split <;> exact ⟨_, rfl⟩
  · exact ⟨_, rfl⟩

theorem settle_port (s : State) (p : Port) :
    (settle s).port p = judgeStall (allPorts.foldl arbitrate s) ((allPorts.foldl arbitrate s).port p) := PerPort.get_map _ _ p

/-- What the end of an event leaves as it is at a port: its state, its link state, its requests, its mask, its pending set, and the
counts of entries dropped and of request errors. -/
theorem settle_kept (s : State) (q : Port) : ∃ responses notice outbound essential sheddable credit sent stall,
    (settle s).port q = { s.port q with
      responses := responses, notice := notice, outbound := outbound, essential := essential, sheddable := sheddable
      credit := credit, sent := sent, stall := stall } := by
  have fold : ∀ (ps : List Port) (s : State), ∃ responses notice outbound essential sheddable credit sent,
      (ps.foldl arbitrate s).port q = { s.port q with
        responses := responses, notice := notice, outbound := outbound, essential := essential, sheddable := sheddable
        credit := credit, sent := sent } := by
    intro ps
    induction ps with
    | nil => exact fun s => ⟨_, _, _, _, _, _, _, rfl⟩
    | cons p ps ih =>
      intro s
      obtain ⟨_, _, _, _, _, _, _, later⟩ := ih (arbitrate s p)
      obtain ⟨_, _, _, _, _, _, _, first⟩ := arbitrate_kept s p q
      rw [List.foldl_cons, later, first]
      exact ⟨_, _, _, _, _, _, _, rfl⟩
  obtain ⟨_, _, _, _, _, _, _, arbitrated⟩ := fold allPorts s
  obtain ⟨_, judged⟩ := judgeStall_kept (allPorts.foldl arbitrate s) ((allPorts.foldl arbitrate s).port q)
  rw [settle_port, judged, arbitrated]
  exact ⟨_, _, _, _, _, _, _, _, rfl⟩

@[simp] theorem settle_pendingSet (s : State) (p : Port) : ((settle s).port p).pendingSet = (s.port p).pendingSet := by
  obtain ⟨_, _, _, _, _, _, _, _, e⟩ := settle_kept s p
  rw [e]

@[simp] theorem settle_state (s : State) (p : Port) : ((settle s).port p).state = (s.port p).state := by
  obtain ⟨_, _, _, _, _, _, _, _, e⟩ := settle_kept s p
  rw [e]

theorem settle_grows (s : State) : PendingGrows s (settle s) := fun p => by
  rw [settle_pendingSet, settle_state]
  exact ⟨rfl, fun _ => id⟩

@[simp] theorem settle_pending (s : State) : (settle s).pending = s.pending := (settle_agree s).pending (by decide)
@[simp] theorem settle_now (s : State) : (settle s).now = s.now := (settle_agree s).now (by decide)
@[simp] theorem settle_mu (s : State) : (settle s).mu = s.mu := (settle_agree s).mu (by decide)
@[simp] theorem settle_ru (s : State) : (settle s).ru = s.ru := (settle_agree s).ru (by decide)
@[simp] theorem settle_lanes (s : State) : (settle s).lanes = s.lanes := (settle_agree s).lanes (by decide)
@[simp] theorem settle_cb (s : State) : (settle s).cb = s.cb := (settle_agree s).cb (by decide)
@[simp] theorem settle_le (s : State) : (settle s).le = s.le := (settle_agree s).le (by decide)
@[simp] theorem settle_bsc (s : State) : (settle s).bsc = s.bsc := (settle_agree s).bsc (by decide)
@[simp] theorem settle_dram (s : State) : (settle s).dram = s.dram := (settle_agree s).dram (by decide)
@[simp] theorem settle_shared (s : State) : (settle s).shared = s.shared := (settle_agree s).shared (by decide)
@[simp] theorem settle_mku (s : State) : (settle s).mku = s.mku := (settle_agree s).mku (by decide)

@[simp] theorem settle_band (s : State) (slot : Nat) : (settle s).band slot = s.band slot := by simp [State.band]

/-- A port that is sending a frame, with its stall timer as its conditions ask, keeps everything at the end of an event. -/
theorem settle_port_busy {s : State} {p : Port} (busy : (s.port p).outbound.isSome = true)
    (stall : (s.port p).stall.isSome = (s.port p).stalling) : (settle s).port p = s.port p := by
  have one : ∀ (s : State) (q : Port), (s.port p).outbound.isSome = true → (arbitrate s q).port p = s.port p := by
    intro s q busy
    by_cases h : p = q
    · subst h
      have rest : arbitrate s p = s := (arbitrate_eq_self s p).mpr fun _ idle => by simp [idle] at busy
      rw [rest]
    · exact (arbitrate_spec s q).2.1 p h
  have fold : ∀ (ps : List Port) (s : State), (s.port p).outbound.isSome = true → (ps.foldl arbitrate s).port p = s.port p := by
    intro ps
    induction ps with
    | nil => exact fun _ _ => rfl
    | cons q ps ih =>
      intro s busy
      have kept := one s q busy
      rw [List.foldl_cons, ih _ (by rw [kept]; exact busy), kept]
  rw [settle_port, fold allPorts s busy]
  exact judgeStall_of_settled _ _ stall

/-- A settled state stays so under every change that keeps the ports, the windows and the bands. -/
theorem Settled.congr {s t : State} (h : Settled s) (ports : t.ports = s.ports) (windows : t.windows = s.windows)
    (bands : t.bsc.bands = s.bsc.bands) : Settled t where
  arbiter := fun p => by
    rw [arbitrate_eq_self, State.port, ports, windows, bands]
    exact h.port_restful p
  stall := fun p => by
    rw [State.port, ports]
    exact h.stall p

end Sys2Proof.Machine
end

section
/-!
SUPPORT. The Motion Unit: what a due line hands on to its receivers, the encoder's counts, and the motion values that every step keeps.
-/

namespace Sys2Proof.Machine

/-! ### The receivers of a due line see their own blocks alone -/

/-- The Repeat Unit takes a due line by its own state alone (R19). -/
theorem repeatDueLine_ru_congr (w : Line) {s t : State} (h : s.ru = t.ru) : (repeatDueLine w s).ru = (repeatDueLine w t).ru := by
  have opened : ∀ (cause : Option RestartKind) {s t : State}, s.ru = t.ru → (openRepeat w cause s).ru = (openRepeat w cause t).ru := by
    intro cause s t h
    rw [(openRepeat_spec w cause s).1, (openRepeat_spec w cause t).1, h]
  have advanced : (phaseAdvance w s).ru = (phaseAdvance w t).ru := by
    unfold phaseAdvance
    rw [h]
    dsimp only
    split
    · rfl
    · exact opened _ rfl
  have restarted : ∀ {s t : State}, s.ru = t.ru → (restartStep w s).ru = (restartStep w t).ru := by
    intro s t h
    unfold restartStep
    rw [h]
    split
    · exact h
    · split
      · rfl
      · simp only [State.withRu_ru, opened _ h]
  have ended : ∀ {s t : State}, s.ru = t.ru → (windowEnd w s).ru = (windowEnd w t).ru := by
    intro s t h
    unfold windowEnd
    rw [h]
    dsimp only
    split
    · split
      · simp only [goLock_ru, State.withRu_ru]
      · simp only [goLock_ru, State.withRu_ru]
    · exact h
  have expired : ∀ {s t : State}, s.ru = t.ru → (chainExpiry w s).ru = (chainExpiry w t).ru := by
    intro s t h
    unfold chainExpiry
    rw [h]
    split
    · split
      · rfl
      · exact h
    · exact h
  exact expired (ended (restarted advanced))

/-- The Marker Unit after an entry fired (R157). -/
theorem fireEntry_mku (s : State) (e : MarkerEntry) : (fireEntry s e).mku = { s.mku with
    outputs := s.mku.outputs.set e.output ((s.mku.outputs.get e.output).fire s.now e.width)
    fired := s.mku.fired.map fun p n => if e.requesters.get p then n + 1 else n } := rfl

/-- The Marker Unit takes a due line by its own state and the clock alone (R157). -/
theorem markerDueLine_mku_congr (w : Line) {s t : State} (mku : s.mku = t.mku) (now : s.now = t.now) :
    (markerDueLine w s).mku = (markerDueLine w t).mku := by
  have fired : ∀ (es : List MarkerEntry) {s t : State}, s.mku = t.mku → s.now = t.now →
      (es.foldl fireEntry s).mku = (es.foldl fireEntry t).mku := by
    intro es
    induction es with
    | nil => exact fun mku _ => mku
    | cons e es ih =>
      intro s t mku now
      refine ih ?_ now
      rw [fireEntry_mku, fireEntry_mku, mku, now]
  unfold markerDueLine
  rw [mku]
  exact fired _ rfl now

/-- The span check of the Leveling Engine looks at the engine and the lanes alone (R86, R88). -/
theorem levelSpan_congr (w : Line) {s t : State} (le : s.le = t.le) (lanes : s.lanes = t.lanes) :
    (levelSpan w s).le = (levelSpan w t).le ∧ (levelSpan w s).lanes = (levelSpan w t).lanes := by
  unfold levelSpan
  rw [le]
  split
  · exact ⟨le, lanes⟩
  · exact ⟨le, lanes⟩
  next x _ =>
    split
    · refine ⟨rfl, ?_⟩
      unfold endSearch
      dsimp only
      show State.lanes (ite _ _ _) = State.lanes (ite _ _ _)
      split
      · simp only [stageOffsets, State.withLanes_lanes, lanes]
      · exact lanes
    · exact ⟨le, lanes⟩

/-! ### A due line -/

/-- The Motion Unit after its own counts of a due line (R7, R8, R13). -/
theorem countDueLine_mu (s : State) : (countDueLine s).mu = { s.mu with
    wln := s.mu.wln + 1
    gateCount := s.mu.gateCount + 1
    stopTimer := some (s.now + s.mu.settings.stopTime * 100000)
    motion := .moving } := by
  unfold countDueLine
  dsimp only
  split <;> rfl

theorem countDueLine_agree (s : State) : State.Agree [.mu, .ports] s (countDueLine s) := by
  unfold countDueLine
  dsimp only
  split
  · exact (agree_withMu s _ (by decide)).trans (raiseWhere_agree _ _ _ (by decide))
  · exact agree_withMu s _ (by decide)

theorem countDueLine_raises (s : State) : OnlyRaises s (countDueLine s) := by
  unfold countDueLine
  dsimp only
  split
  · exact raiseWhere_raises _ _ _
  · exact .of_ports rfl

/-- The first due line after a stop raises MOTION (R13). -/
theorem countDueLine_pending {s : State} (h : s.mu.motion = .stopped) : PendingUp .motion s (countDueLine s) := by
  unfold countDueLine
  dsimp only
  rw [h]
  exact raiseUp_pending .motion (s.withMu _)

/-- The state that the receivers of a due line leave to the trigger gate (R8, log 10). -/
def afterReceivers (s : State) : State :=
  let w := s.mu.wln + 1
  levelSpan w (markerDueLine w (markRepeatStart w (repeatDueLine w (countDueLine s))))

theorem dueLine_eq (s : State) : dueLine s = gateDueLine (s.mu.wln + 1) (afterReceivers s) := by
  unfold dueLine afterReceivers
  dsimp only
  rw [countDueLine_mu]

theorem markRepeatStart_mu (w : Line) (s : State) :
    (markRepeatStart w s).mu = { s.mu with repeatStart := s.mu.repeatStart || decide (s.ru.newest.start = w) } := by
  unfold markRepeatStart
  split
  next h => simp [h]
  next h => simp [h]

theorem markRepeatStart_agree (w : Line) (s : State) : State.Agree [.mu] s (markRepeatStart w s) :=
  agree_ite (fun _ => agree_withMu s _ (by decide)) fun _ => .refl _ s

/-- Everything that a due line does before the trigger gate: each block as its own receiver leaves it. -/
structure Received (s t : State) : Prop where
  mu : t.mu = { s.mu with
    wln := s.mu.wln + 1
    gateCount := s.mu.gateCount + 1
    stopTimer := some (s.now + s.mu.settings.stopTime * 100000)
    motion := .moving
    repeatStart := s.mu.repeatStart || decide (t.ru.newest.start = s.mu.wln + 1) }
  ru : t.ru = (repeatDueLine (s.mu.wln + 1) s).ru
  mku : t.mku = (markerDueLine (s.mu.wln + 1) s).mku
  le : t.le = (levelSpan (s.mu.wln + 1) s).le
  lanes : t.lanes = (levelSpan (s.mu.wln + 1) s).lanes
  raises : OnlyRaises s t
  moved : s.mu.motion = .stopped → PendingUp .motion s t
  agree : State.Agree [.mu, .ru, .lanes, .le, .ports, .mku] s t

theorem afterReceivers_spec (s : State) : Received s (afterReceivers s) := by
  set w := s.mu.wln + 1 with hw
  have counted := countDueLine_agree s
  set c := countDueLine s with hc
  have repeated := repeatDueLine_agree (A := [.ru, .ports]) w c (by decide) (by decide)
  set r := repeatDueLine w c with hr
  have marked := markRepeatStart_agree w r
  set m := markRepeatStart w r with hm
  have fired := markerDueLine_agree (A := [.mku, .ports]) w m (by decide) (by decide)
  set f := markerDueLine w m with hf
  have spanned := levelSpan_agree w f
  have result : afterReceivers s = levelSpan w f := rfl
  have ru : r.ru = (repeatDueLine w s).ru := repeatDueLine_ru_congr w (counted.ru (by decide))
  have ruEnd : (levelSpan w f).ru = r.ru := by
    rw [spanned.ru (by decide), fired.ru (by decide), marked.ru (by decide)]
  have le : f.le = s.le := by
    rw [fired.le (by decide), marked.le (by decide), repeated.le (by decide), counted.le (by decide)]
  have lanes : f.lanes = s.lanes := by
    rw [fired.lanes (by decide), marked.lanes (by decide), repeated.lanes (by decide), counted.lanes (by decide)]
  have levelled := levelSpan_congr w le lanes
  have tail : OnlyRaises c (levelSpan w f) :=
    (((repeatDueLine_raises w c).trans (.of_ports (marked.ports (by decide)))).trans (markerDueLine_raises w m)).trans
      (levelSpan_raises w f)
  rw [result]
  constructor
  case mu =>
    rw [spanned.mu (by decide), fired.mu (by decide), hm, markRepeatStart_mu, ruEnd, repeated.mu (by decide), hc, countDueLine_mu]
  case ru => rw [ruEnd, ru]
  case mku =>
    rw [spanned.mku (by decide)]
    refine markerDueLine_mku_congr w ?_ ?_
    · rw [marked.mku (by decide), repeated.mku (by decide), counted.mku (by decide)]
    · rw [marked.now (by decide), repeated.now (by decide), counted.now (by decide)]
  case le => exact levelled.1
  case lanes => exact levelled.2
  case raises => exact (countDueLine_raises s).trans tail
  case moved => exact fun stopped => (countDueLine_pending stopped).grow tail.grows
  case agree =>
    exact (((((counted.mono (by decide)).trans (repeated.mono (by decide))).trans (marked.mono (by decide))).trans
      (fired.mono (by decide))).trans (spanned.mono (by decide)))

/-- The Motion Unit after a due line at the trigger gate (R9, R10, R11). -/
theorem gateDueLine_mu (w : Line) (s : State) : (gateDueLine w s).mu = { s.mu with
    gate := some (s.mu.gate.getD (s.now + s.mu.settings.spacing))
    skipped := if s.mu.gate.isSome then s.mu.skipped + 1 else s.mu.skipped
    repeatStart := if s.mu.gate.isSome then s.mu.repeatStart else false } := by
  unfold gateDueLine
  split
  next h => rw [(triggerLanes_agree w _ _).mu (by decide)]; simp [h]
  next h =>
    show { s.mu with skipped := s.mu.skipped + 1 } = _
    simp [h]

/-- The Motion Unit after a due line (R7 to R13). -/
theorem dueLine_mu (s : State) : (dueLine s).mu = { s.mu with
    wln := s.mu.wln + 1
    gateCount := s.mu.gateCount + 1
    stopTimer := some (s.now + s.mu.settings.stopTime * 100000)
    motion := .moving
    gate := some (s.mu.gate.getD (s.now + s.mu.settings.spacing))
    skipped := if s.mu.gate.isSome then s.mu.skipped + 1 else s.mu.skipped
    repeatStart := if s.mu.gate.isSome then
        s.mu.repeatStart || decide ((repeatDueLine (s.mu.wln + 1) s).ru.newest.start = s.mu.wln + 1)
      else false } := by
  have received := afterReceivers_spec s
  rw [dueLine_eq, gateDueLine_mu, received.mu, received.ru, received.agree.now (by decide)]

/-! ### Every step keeps the motion values -/

/-- The motion values speak of the settings, the accumulator and the owed count alone. -/
theorem MotionOk.congr {s t : State} (h : MotionOk s) (settings : t.mu.settings = s.mu.settings) (acc : t.mu.acc = s.mu.acc)
    (owed : t.mu.owed = s.mu.owed) : MotionOk t where
  ratio := by rw [settings]; exact h.ratio
  acc := by rw [acc, settings]; exact h.acc
  owed := by rw [owed]; exact h.owed

theorem MotionOk.of_mu {s t : State} (h : MotionOk s) (mu : t.mu = s.mu) : MotionOk t :=
  h.congr (by rw [mu]) (by rw [mu]) (by rw [mu])

theorem motionOk_initial {s : State} {inputs : EncInputs} {now : Nat} (h : s.mu = MotionUnit.initial inputs now) : MotionOk s where
  ratio := by rw [h]; exact ⟨Nat.le_refl 1, Nat.le_refl 1⟩
  acc := by rw [h]; exact Nat.zero_lt_one
  owed := by rw [h]; exact Nat.zero_le _

theorem MotionOk.dueLine {s : State} (h : MotionOk s) : MotionOk (dueLine s) :=
  h.congr (by rw [dueLine_mu]) (by rw [dueLine_mu]) (by rw [dueLine_mu])

/-- A forward count keeps A below D: N is at most D, and D is subtracted at D or more (R3). -/
theorem MotionOk.forwardCount {s : State} (h : MotionOk s) : MotionOk (forwardCount s) := by
  obtain ⟨ratio, acc, owed⟩ := h
  unfold Machine.forwardCount
  dsimp only
  split
  · have stepped : MotionOk (s.withMu { s.mu with acc := s.mu.acc + s.mu.settings.n - s.mu.settings.d }) :=
      ⟨ratio, by simp only [State.withMu_mu]; omega, owed⟩
    unfold lineStep
    split
    · exact ⟨stepped.ratio, stepped.acc, (Nat.sub_le _ 1).trans owed⟩
    · exact stepped.dueLine
  · exact ⟨ratio, by simp only [State.withMu_mu]; omega, owed⟩

theorem overrunIndication_mu (s : State) : (overrunIndication s).mu = s.mu :=
  (overrunIndication_agree (A := [.ru, .ports]) s (by decide) (by decide)).mu (by decide)

/-- A reverse count keeps A below D, and the owed lines are counted up below 4095 alone (R5, R6). -/
theorem MotionOk.reverseCount {s : State} (h : MotionOk s) : MotionOk (reverseCount s) := by
  obtain ⟨ratio, acc, owed⟩ := h
  unfold Machine.reverseCount
  split
  · exact ⟨ratio, by simp only [State.withMu_mu]; omega, owed⟩
  · have stepped : MotionOk (s.withMu { s.mu with acc := s.mu.acc + s.mu.settings.d - s.mu.settings.n }) :=
      ⟨ratio, by simp only [State.withMu_mu]; omega, owed⟩
    unfold reverseStep
    split
    next below => exact ⟨stepped.ratio, stepped.acc, below⟩
    · exact stepped.congr (by rw [overrunIndication_mu]; rfl) (by rw [overrunIndication_mu]; rfl) (by rw [overrunIndication_mu]; rfl)

theorem MotionOk.encoderChange {s : State} (inputs : EncInputs) (h : MotionOk s) : MotionOk (encoderChange inputs s) := by
  have moved : MotionOk (s.withMu { s.mu with reference := inputs }) := h.congr rfl rfl rfl
  unfold Machine.encoderChange
  dsimp only
  split
  · exact moved
  · split
    · exact h.congr rfl rfl rfl
    · split
      · exact moved.forwardCount
      · exact moved.reverseCount

/-- A record that SET_MOTION takes has N from 1 to D, and A is cleared where the ratio changes (R15, R16). -/
theorem MotionOk.setMotion {s : State} (r : MotionSettings) (h : MotionOk s) : MotionOk (setMotion r s).1 := by
  unfold Machine.setMotion
  split
  next inRange =>
    simp only [MotionSettings.inRange, decide_eq_true_eq] at inRange
    refine ⟨⟨inRange.1, inRange.2.2.2.2.1⟩, ?_, h.owed⟩
    have positive : 0 < r.d := inRange.2.2.1
    have acc := h.acc
    simp only [State.withMu_mu]
    split
    next same => rw [same.2]; exact acc
    · exact positive
  · exact h

/-- The taking of a request keeps the motion values if its action does. -/
theorem MotionOk.takeRequest {s t : State} {p : Port} {kind : Option RequestKind} {act : RequestFrame → State → State × Answer}
    (keeps : ∀ f s, MotionOk s → MotionOk (act f s).1) (h : MotionOk s) (e : takeRequest p kind act s = .next t) : MotionOk t := by
  unfold Machine.takeRequest at e
  split at e
  · cases e; exact h
  · split at e
    next f rest _ _ =>
      cases e
      have acted := keeps f (s.setPort p { s.port p with requests := rest }) (h.congr rfl rfl rfl)
      exact acted.of_mu (by rw [settle_mu]; rfl)
    · cases e; exact h

theorem MotionOk.execSetMotion {s t : State} {p : Port} (h : MotionOk s) (e : execSetMotion p s = .next t) : MotionOk t := by
  refine h.takeRequest (fun f s h => ?_) e
  unfold asHolder
  split
  · unfold withFields
    split
    · exact h
    · exact h.setMotion _
  · exact h

theorem MotionOk.execFrameCompletion {s t : State} {p : Port} (h : MotionOk s) (e : execFrameCompletion p s = .next t) : MotionOk t := by
  have sent : MotionOk (settle (s.setPort p { s.port p with outbound := none })) := h.of_mu (by rw [settle_mu]; rfl)
  unfold Machine.execFrameCompletion at e
  split at e
  · split at e
    · cases e; exact motionOk_initial rfl
    · cases e; exact sent
  · cases e; exact sent
  · cases e; exact h
  · cases e; exact h

theorem MotionOk.execSteeringLinkLoss {s t : State} {p : Port} (h : MotionOk s) (e : execSteeringLinkLoss p s = .next t) : MotionOk t := by
  have cut := (cutLink_agree p s).trans (failPort_agree p true _)
  set failed := failPort p true (cutLink p s)
  have lost : MotionOk (settle (dropClaim p (failed.setPort p (downPort (failed.port p))))) :=
    h.of_mu (by rw [settle_mu, (dropClaim_agree p _).mu (by decide), State.setPort_mu, cut.mu (by decide)])
  unfold Machine.execSteeringLinkLoss at e
  split at e
  · cases e; exact h
  all_goals
    split at e
    · cases e; exact motionOk_initial rfl
    · cases e; exact lost

/-- Every command keeps the motion values: a command whose frame spares the Motion Unit leaves them as they are. -/
theorem MotionOk.exec {c : Instr} {s t : State} (h : MotionOk s) (e : exec c s = .next t) : MotionOk t := by
  by_cases spared : Part.mu ∈ touched c
  · cases c with
    | powerOn inputs => cases e; exact motionOk_initial rfl
    | encoderCount inputs => cases e; exact (h.encoderChange inputs).of_mu (settle_mu _)
    | gateReopen =>
      change execGateReopen s = _ at e
      unfold execGateReopen at e
      split at e
      · cases e; exact h
      · cases e; exact h.congr rfl rfl rfl
    | stopTimerExpiry =>
      change execStopTimerExpiry s = _ at e
      unfold execStopTimerExpiry at e
      split at e
      · cases e; exact h
      next due _ =>
        cases e
        set stopped := (s.clockAt due).withMu { s.mu with motion := .stopped, stopTimer := none }
        have stoppedOk : MotionOk stopped := h.congr rfl rfl rfl
        exact stoppedOk.of_mu ((settle_mu _).trans ((stopSeal_agree stopped).mu (by decide)))
    | speedGateEnd => cases e; exact h.congr rfl rfl rfl
    | setMotion p => exact h.execSetMotion e
    | frameCompletion p => exact h.execFrameCompletion e
    | steeringLinkLoss p => exact h.execSteeringLinkLoss e
    | _ => exact absurd spared (by simp [touched, lineParts, deliveryParts])
  · obtain ⟨u, hu, agree⟩ := commandFrames c s
    rw [hu] at e
    cases e
    exact h.of_mu (agree.mu spared)

/-- Settles O6: an idle step leaves the Motion Unit, and every command keeps its values. -/
theorem stepKeepsMotion : Obligations.StepKeepsMotion := by
  unfold Obligations.StepKeepsMotion
  intro s t h e
  unfold step at e
  split at e
  · cases e; exact h.of_mu rfl
  next c rest _ => exact (h.of_mu (t := s.withPending rest) rfl).exec e

end Sys2Proof.Machine
end

section
/-!
SUPPORT. The commands of the Motion Unit: encoder counts and errors, the due line, SET_MOTION; STATUS; the reset values.
-/

namespace Sys2Proof.Machine

/-! ### Encoder counts -/

/-- The four states of the quadrature cycle differ: a state, the next one forward, the opposite one and the next one in reverse (1.2). -/
theorem quadrature_ne (e : EncInputs) : forwardInputs e ≠ e ∧ forwardInputs e ≠ oppositeInputs e
    ∧ oppositeInputs (forwardInputs e) ≠ e ∧ oppositeInputs (forwardInputs e) ≠ oppositeInputs e
    ∧ oppositeInputs (forwardInputs e) ≠ forwardInputs e := by
  rcases e with ⟨_ | _, _ | _⟩ <;> decide

/-- A change of one encoder input is a count, forward or reverse by the next state and direction invert (R1). -/
theorem encoderChange_count {s : State} {inputs : EncInputs} (moved : inputs ≠ s.mu.reference)
    (one : inputs ≠ oppositeInputs s.mu.reference) : let v := s.withMu { s.mu with reference := inputs }
    encoderChange inputs s =
      if decide (inputs = forwardInputs s.mu.reference) != s.mu.settings.invert then forwardCount v else reverseCount v := by
  intro v
  unfold encoderChange
  dsimp only
  rw [if_neg moved, if_neg one]
  rfl

theorem ForwardMove.encoderChange {s : State} {inputs : EncInputs} (h : ForwardMove s inputs) :
    encoderChange inputs s = forwardCount (s.withMu { s.mu with reference := inputs }) := by
  obtain ⟨next, nextOne, back, backOne, differ⟩ := quadrature_ne s.mu.reference
  unfold ForwardMove at h
  cases invert : s.mu.settings.invert with
  | false =>
    rw [invert, if_neg Bool.false_ne_true] at h
    subst h
    rw [encoderChange_count next nextOne, invert]
    simp
  | true =>
    rw [invert, if_pos rfl] at h
    subst h
    rw [encoderChange_count back backOne, invert]
    simp [differ]

theorem ReverseMove.encoderChange {s : State} {inputs : EncInputs} (h : ReverseMove s inputs) :
    encoderChange inputs s = reverseCount (s.withMu { s.mu with reference := inputs }) := by
  obtain ⟨next, nextOne, back, backOne, differ⟩ := quadrature_ne s.mu.reference
  unfold ReverseMove at h
  cases invert : s.mu.settings.invert with
  | false =>
    rw [invert, if_neg Bool.false_ne_true] at h
    subst h
    rw [encoderChange_count back backOne, invert]
    simp [differ]
  | true =>
    rw [invert, if_pos rfl] at h
    subst h
    rw [encoderChange_count next nextOne, invert]
    simp

/-- In a settled state an event that changes the Motion Unit alone has nothing to settle. -/
theorem settle_withMu {s : State} (h : Settled s) (x : MotionUnit) : settle (s.withMu x) = s.withMu x :=
  settle_settled (h.congr rfl rfl rfl)

theorem forwardCount_below {s : State} (h : s.mu.acc + s.mu.settings.n < s.mu.settings.d) :
    forwardCount s = s.withMu { s.mu with acc := s.mu.acc + s.mu.settings.n } := if_neg (Nat.not_le.mpr h)

theorem forwardCount_step {s : State} (h : s.mu.settings.d ≤ s.mu.acc + s.mu.settings.n) :
    forwardCount s = lineStep (s.withMu { s.mu with acc := s.mu.acc + s.mu.settings.n - s.mu.settings.d }) := if_pos h

theorem lineStep_owed {s : State} (h : 0 < s.mu.owed) : lineStep s = s.withMu { s.mu with owed := s.mu.owed - 1 } := if_pos h

theorem lineStep_due {s : State} (h : s.mu.owed = 0) : lineStep s = dueLine s := if_neg (by rw [h]; exact Nat.lt_irrefl 0)

/-- Settles O17. -/
theorem forwardCount_spec : Obligations.ForwardCount := by
  unfold Obligations.ForwardCount
  intro s inputs settled move
  set v := s.withMu { s.mu with reference := inputs } with hv
  have run : exec (.encoderCount inputs) s = .next (settle (forwardCount v)) := by
    rw [hv, ← move.encoderChange]; rfl
  refine ⟨fun below => ?_, fun step owed => ?_, fun step owed => ?_⟩
  · rw [run, forwardCount_below (s := v) below]
    exact congrArg _ (settle_withMu settled _)
  · rw [run, forwardCount_step (s := v) step, lineStep_owed (by exact owed)]
    exact congrArg _ (settle_withMu settled _)
  · rw [run, forwardCount_step (s := v) step, lineStep_due (by exact owed)]
    rfl

theorem reverseCount_enough {s : State} (h : s.mu.settings.n ≤ s.mu.acc) :
    reverseCount s = s.withMu { s.mu with acc := s.mu.acc - s.mu.settings.n } := if_pos h

theorem reverseCount_step {s : State} (h : s.mu.acc < s.mu.settings.n) :
    reverseCount s = reverseStep (s.withMu { s.mu with acc := s.mu.acc + s.mu.settings.d - s.mu.settings.n }) :=
  if_neg (Nat.not_le.mpr h)

theorem reverseStep_owed {s : State} (h : s.mu.owed < 4095) : reverseStep s = s.withMu { s.mu with owed := s.mu.owed + 1 } := if_pos h

theorem reverseStep_overrun {s : State} (h : 4095 ≤ s.mu.owed) :
    reverseStep s = overrunIndication (raiseUp .encoder (s.withMu { s.mu with overruns := s.mu.overruns + 1 })) :=
  if_neg (Nat.not_lt.mpr h)

/-- The reverse overrun indication at the Repeat Unit: unless the lock is OFF, it goes to HUNT and the chain is emptied (R31). -/
theorem overrunIndication_ru (s : State) :
    (overrunIndication s).ru = if s.ru.lock = .off then s.ru else { s.ru with lock := .hunt, chain := none } := by
  unfold overrunIndication
  split
  next h => rw [if_pos h]
  all_goals
    next h => rw [if_neg (by rw [h]; decide), goLock_ru]; rfl

/-- The reverse overrun indication raises LOCK where the lock leaves LOCKED or COAST (R31, 2.5). -/
theorem overrunIndication_pendingSet (s : State) (p : Port) :
    ((overrunIndication s).port p).pendingSet = if (s.port p).isUp ∧ (s.ru.lock = .locked ∨ s.ru.lock = .coast) then
        NoticeSet.add (s.port p).pendingSet .lock
      else (s.port p).pendingSet := by
  unfold overrunIndication
  split
  next h => simp [h]
  all_goals
    next h => rw [(goLock_port _ _ p).2]; simp [h]

/-- Settles O18. -/
theorem reverseCount_spec : Obligations.ReverseCount := by
  unfold Obligations.ReverseCount
  intro s inputs settled move
  set v := s.withMu { s.mu with reference := inputs } with hv
  have run : exec (.encoderCount inputs) s = .next (settle (reverseCount v)) := by
    rw [hv, ← move.encoderChange]; rfl
  refine ⟨fun enough => ?_, fun below owed => ?_, fun below owed => ?_⟩
  · rw [run, reverseCount_enough (s := v) enough]
    exact congrArg _ (settle_withMu settled _)
  · rw [run, reverseCount_step (s := v) below, reverseStep_owed (by exact owed)]
    exact congrArg _ (settle_withMu settled _)
  · set m : MotionUnit := { s.mu with
      reference := inputs, acc := s.mu.acc + s.mu.settings.d - s.mu.settings.n, overruns := s.mu.overruns + 1 }
    set u := raiseUp .encoder (s.withMu m)
    have overrun : reverseCount v = overrunIndication u := by
      rw [reverseCount_step (s := v) below, reverseStep_overrun (by exact owed)]
      rfl
    have indicated := overrunIndication_agree (A := [.ru, .ports]) u (by decide) (by decide)
    have raised : RaisedUp .encoder (s.withMu m) u := raiseUp_raisedUp .encoder _
    have raises : OnlyRaises (s.withMu m) u := raiseWhere_raises _ _ _
    have frame : State.Agree [.mu, .ru, .windows, .ports] s (settle (overrunIndication u)) :=
      (((agree_withMu s m (by decide)).trans (raiseWhere_agree _ _ _ (by decide))).trans (indicated.mono (by decide))).trans
        ((settle_agree _).mono (by decide))
    refine ⟨settle (overrunIndication u), by rw [run, overrun], ?_, ?_, ?_, fun p => ?_, frame⟩
    · rw [settle_mu, overrunIndication_mu]; rfl
    · rw [settle_ru, overrunIndication_ru]; rfl
    · exact (raiseUp_pending .encoder (s.withMu m)).grow ((overrunIndication_raises u).grows.trans (settle_grows _))
    · have up : (u.port p).isUp = (s.port p).isUp := raises.isUp p
      rw [settle_pendingSet, overrunIndication_pendingSet, up, raised p]
      show (if _ ∧ (s.ru.lock = _ ∨ s.ru.lock = _) then _ else _) = _
      by_cases h : (s.port p).isUp = true
      · by_cases l : s.ru.lock = .locked ∨ s.ru.lock = .coast <;> simp [h, l]
      · simp [h]

/-! ### Encoder errors -/

theorem encoderChange_opposite (s : State) : encoderChange (oppositeInputs s.mu.reference) s = raiseUp .encoder (s.withMu
    { s.mu with reference := oppositeInputs s.mu.reference, encoderErrors := s.mu.encoderErrors + 1 }) := by
  have changed : oppositeInputs s.mu.reference ≠ s.mu.reference := by
    rcases s.mu.reference with ⟨_ | _, _ | _⟩ <;> decide
  unfold encoderChange
  dsimp only
  rw [if_neg changed, if_pos rfl]
  rfl

/-- Settles O19. -/
theorem encoderError : Obligations.EncoderError := by
  unfold Obligations.EncoderError
  intro s
  set m : MotionUnit := { s.mu with reference := oppositeInputs s.mu.reference, encoderErrors := s.mu.encoderErrors + 1 } with hm
  set u := raiseUp .encoder (s.withMu m) with hu
  have run : exec (.encoderCount (oppositeInputs s.mu.reference)) s = .next (settle u) := by
    rw [hu, hm, ← encoderChange_opposite]; rfl
  refine ⟨settle u, run, settle_mu u, fun p => ?_, fun settled p => ?_, ?_⟩
  · rw [settle_pendingSet]; exact raiseUp_raisedUp .encoder (s.withMu m) p
  · intro c up busy
    have raised : u.port p = raisePort .encoder c := (raiseWhere_port _ .encoder (s.withMu m) p).trans (if_pos up)
    have kept : (settle u).port p = raisePort .encoder c := by
      rw [← raised]
      refine settle_port_busy (by rw [raised, raisePort_outbound]; exact busy) ?_
      rw [raised, raisePort_stall, settled.stall p]
      simp [ConsumerPort.stalling, ConsumerPort.isLive, c]
    rw [kept]
    refine ⟨fun pending => if_pos pending, fun fresh masked => ?_, fun fresh enabled => ?_⟩
    · simp [raisePort, fresh, masked]
    · rw [raisePort, if_neg (by rw [fresh]; decide), if_pos enabled]
      cases c.notice <;> rfl
  · exact ((agree_withMu s m (by decide)).trans (raiseWhere_agree _ _ _ (by decide))).trans ((settle_agree u).mono (by decide))

/-! ### The due line -/

/-- The state from which the trigger gate hands a due line on to the lanes, or in which it skips the line (R10, R11). -/
def afterGate (s : State) : State :=
  match s.mu.gate with
  | none => s.withMu { s.mu with gate := some (s.now + s.mu.settings.spacing), repeatStart := false }
  | some _ => raiseUp .skip (s.withMu { s.mu with skipped := s.mu.skipped + 1 })

theorem gateDueLine_eq (w : Line) (s : State) :
    gateDueLine w s = if s.mu.gate.isSome then afterGate s else triggerLanes w s.mu.repeatStart (afterGate s) := by
  unfold gateDueLine afterGate
  cases s.mu.gate <;> rfl

theorem afterGate_agree (s : State) : State.Agree [.mu, .ports] s (afterGate s) := by
  unfold afterGate
  split
  · exact agree_withMu s _ (by decide)
  · exact (agree_withMu s _ (by decide)).trans (raiseWhere_agree _ _ _ (by decide))

theorem afterGate_raises (s : State) : OnlyRaises s (afterGate s) := by
  unfold afterGate
  split
  · exact .of_ports rfl
  · exact raiseWhere_raises _ _ _

theorem afterGate_skip {s : State} (h : s.mu.gate.isSome = true) : PendingUp .skip s (afterGate s) := by
  unfold afterGate
  split
  next open_ => simp [open_] at h
  · exact raiseUp_pending .skip (s.withMu _)

/-- What the lanes add to a due line at the gate: nothing on a closed gate, and parts of a line on an open one. -/
theorem gateDueLine_after (w : Line) (s : State) :
    State.Agree lineParts (afterGate s) (gateDueLine w s) ∧ PendingGrows (afterGate s) (gateDueLine w s) := by
  rw [gateDueLine_eq]
  split
  · exact ⟨.refl _ _, .refl _⟩
  · exact ⟨triggerLanes_agree _ _ _, triggerLanes_grows _ _ _⟩

/-- Settles O20: the receivers by `afterReceivers_spec`, then the gate. -/
theorem dueLine_spec : Obligations.DueLine := by
  unfold Obligations.DueLine
  intro s w t
  set r := afterReceivers s with hr
  have received : Received s r := afterReceivers_spec s
  set u := afterGate r with hu
  have gated := afterGate_agree r
  have due : dueLine s = gateDueLine w r := dueLine_eq s
  obtain ⟨lanes, grows⟩ := gateDueLine_after w r
  rw [← due] at lanes grows
  have ended : State.Agree lineParts u t := lanes.trans ((settle_agree _).mono (by decide))
  have pendingGrows : PendingGrows u t := grows.trans (settle_grows _)
  have ru : t.ru = (repeatDueLine w s).ru := by
    rw [ended.ru (by decide), gated.ru (by decide), received.ru]
  have gate : r.mu.gate = s.mu.gate := by rw [received.mu]
  have raises : OnlyRaises s u := received.raises.trans (afterGate_raises r)
  have agree : State.Agree [.mu, .ru, .lanes, .le, .ports, .mku] s u := received.agree.trans (gated.mono (by decide))
  have start : r.mu.repeatStart = (s.mu.repeatStart || decide (u.ru.newest.start = w)) := by
    rw [gated.ru (by decide), received.mu]
  have trigger : s.mu.gate = none → dueLine s = triggerLanes w (s.mu.repeatStart || decide (u.ru.newest.start = w)) u := by
    intro isOpen
    rw [due, gateDueLine_eq, gate, isOpen, start]
    rfl
  have skip : s.mu.gate.isSome = true → dueLine s = u := by
    intro closed
    rw [due, gateDueLine_eq, gate, if_pos closed]
  refine ⟨ru, ?_, ?_, ⟨u, ?_, ?_, ?_, ?_, ?_, raises.kept, agree, ?_, ?_⟩, ?_, ?_, ?_, ?_, ?_, ?_⟩
  · show (settle (dueLine s)).mu = _
    rw [settle_mu, dueLine_mu, ru]
    cases s.mu.gate <;> rfl
  · rw [ended.mku (by decide), gated.mku (by decide), received.mku]
  · exact (ended.mu (by decide)).symm
  · exact (ended.ru (by decide)).symm
  · exact (ended.mku (by decide)).symm
  · rw [gated.le (by decide), received.le]
  · rw [gated.lanes (by decide), received.lanes]
  · exact fun isOpen => congrArg settle (trigger isOpen)
  · exact fun closed => congrArg settle (skip closed)
  · exact fun stopped => ((received.moved stopped).grow (afterGate_raises r).grows).grow pendingGrows
  · exact fun closed => ((afterGate_skip (by rw [gate]; exact closed)).of_isUp received.raises.isUp).grow pendingGrows
  · intro closed
    show (settle (dueLine s)).dram = _
    rw [skip closed, settle_dram, agree.dram (by decide)]
  · rw [ended.pending (by decide), agree.pending (by decide)]
  · rw [ended.now (by decide), agree.now (by decide)]
  · rw [ended.shared (by decide), agree.shared (by decide)]

/-! ### SET_MOTION and STATUS -/

/-- A motion settings record is read back from its field bytes (11.3). -/
theorem readMotion_fields {r : MotionSettings} (h : (Request.setMotion r).fits) : readMotion (Request.setMotion r).fields = some r := by
  obtain ⟨n, d, spacing, stopTime⟩ := h
  have read : readMotion (Request.setMotion r).fields = (boolOfCode (BitVec.ofNat 8 (codeOfBool r.invert)).toNat).map fun invert =>
      { n := leValue (leBytes 2 r.n), d := leValue (leBytes 2 r.d), invert := invert, spacing := leValue (leBytes 4 r.spacing)
        stopTime := leValue (leBytes 2 r.stopTime) } := rfl
  rw [read, byte_toNat (codes_lt.1 r.invert), boolOfCode_codeOfBool, leValue_leBytes n, leValue_leBytes d, leValue_leBytes spacing,
    leValue_leBytes stopTime]
  rfl

/-- Settles O22. -/
theorem setMotionTaken : Obligations.SetMotionTaken := by
  unfold Obligations.SetMotionTaken
  intro s p tag rest r settled taken fits holder
  set f := (Request.setMotion r).frame tag with hf
  set t := s.setPort p { s.port p with requests := rest } with ht
  have kind : f.requestKind = some .setMotion := Request.frame_kind _ tag
  have read : asHolder p (withFields readMotion setMotion) f t = setMotion r t := by
    have fields : readMotion f.fields = some r := readMotion_fields fits
    unfold asHolder withFields
    rw [if_pos (by exact holder), fields]
  show takeRequest p (some .setMotion) (asHolder p (withFields readMotion setMotion)) s = _
  have own : t.port p = { s.port p with requests := rest } := State.port_setPort_self _ _ _
  have others : ∀ q, q ≠ p → t.port q = s.port q := fun q hq => State.port_setPort_ne _ _ hq
  by_cases inRange : 1 ≤ r.n ∧ r.n ≤ 65535 ∧ 1 ≤ r.d ∧ r.d ≤ 65535 ∧ r.n ≤ r.d ∧ 200 ≤ r.spacing ∧ r.spacing ≤ 100000
      ∧ 10 ≤ r.stopTime ∧ r.stopTime ≤ 10000
  · rw [if_pos inRange]
    have does : asHolder p (withFields readMotion setMotion) f t = (t.withMu { s.mu with
        settings := r, acc := if r.n = s.mu.settings.n ∧ r.d = s.mu.settings.d then s.mu.acc else 0 }, { code := .done }) := by
      rw [read, setMotion, if_pos (by simpa [MotionSettings.inRange] using inRange)]
      rfl
    rw [takeRequest_settled settled taken kind does rfl rfl own others]
    simp [answered, ht, State.setPort, State.withMu, State.withPorts, State.port, responseTo, hf]
  · rw [if_neg inRange]
    have does : asHolder p (withFields readMotion setMotion) f t = (t, { code := .range }) := by
      rw [read, setMotion, if_neg (by simpa [MotionSettings.inRange] using inRange)]
      rfl
    rw [takeRequest_settled settled taken kind does rfl rfl own others]
    simp [answered, ht, responseTo, hf]

/-- The pending set of a port is nothing that its arbiter or its stall timer looks at. -/
theorem Settled.clearPending {s : State} (h : Settled s) (p : Port) (x : NoticeSet) :
    Settled (s.setPort p { s.port p with pendingSet := x }) where
  arbiter := fun q => by
    rw [arbitrate_eq_self, State.port_setPort]
    split
    next e => subst e; exact h.port_restful q
    · exact h.port_restful q
  stall := fun q => by
    rw [State.port_setPort]
    split
    next e => subst e; exact h.stall q
    · exact h.stall q

/-- Settles O45: the taking of the STATUS comes to a response in the settled state whose pending set is emptied. -/
theorem statusTaken : Obligations.StatusTaken := by
  unfold Obligations.StatusTaken
  intro s p tag rest settled taken c r
  set f := Request.status.frame tag with hf
  set v := s.setPort p { c with pendingSet := 0 } with hv
  have vSettled : Settled v := settled.clearPending p 0
  have up : (v.port p).isUp = true := by
    have takes := taken.takes
    simp only [State.takesRequests, Bool.and_eq_true] at takes
    rw [hv, State.port_setPort_self]
    exact takes.1.1
  have kind : f.requestKind = some .status := Request.frame_kind _ tag
  set t := v.setPort p { v.port p with requests := rest } with ht
  have record : (s.setPort p { c with requests := rest }).statusOf p = r := by
    unfold State.statusOf
    simp only [State.port_setPort_self]
    rfl
  have act : withFields readNothing (takeStatus p) f (s.setPort p { s.port p with requests := rest })
      = (t, { code := .done, data := .status r }) := by
    show takeStatus p () _ = _
    rw [takeStatus, record, ht, hv]
    simp only [State.port_setPort_self, State.setPort_setPort]
    rfl
  show takeRequest p (some .status) (withFields readNothing (takeStatus p)) s = _
  unfold takeRequest
  rw [taken.head]
  simp only [kind, taken.takes, and_self, if_true, act]
  rw [settle_respond (t := t) vSettled up rfl rfl (State.port_setPort_self _ _ _) fun q hq => State.port_setPort_ne _ _ hq]
  simp only [ht, State.setPort_setPort]
  rfl

/-! ### Reset values -/

/-- The free list at a reset holds every slot; stated by unfolding alone, since evaluating the list is long. -/
theorem initial_free : BandStore.initial.free = List.range Config.slotCount := by
  unfold BandStore.initial
  dsimp only

/-- Settles O23. -/
theorem powerOnValues : Obligations.PowerOnValues := by
  unfold Obligations.PowerOnValues
  intro inputs s
  refine ⟨powerOnReset inputs s, rfl, ?_, fun p => ?_, fun p => ?_⟩
  · constructor
    case motion => rfl
    case repeats => rfl
    case lanes => intro k; cases k <;> rfl
    case tables => intro k n; cases k <;> rfl
    case staging => exact fun _ => rfl
    case page => exact ⟨rfl, rfl, rfl⟩
    case engine => rfl
    case bands => exact fun _ => rfl
    case store =>
      refine ⟨?_, fun k => ⟨PerLane.get_all none k, PerLane.get_all false k⟩, rfl, rfl, rfl, rfl⟩
      show BandStore.initial.free = _
      rw [initial_free, Config.slotCount]
    case windows => exact fun _ => rfl
    case shared => rfl
    case markers => rfl
    case outputs => intro o; cases o <;> rfl
    case kept => exact ⟨rfl, rfl, rfl⟩
  · cases p <;> rfl
  · cases p <;> exact ⟨rfl, rfl⟩

@[simp] theorem reset_port (p : Port) : State.reset.port p = ConsumerPort.initial .down false := by cases p <;> rfl

@[simp] theorem reset_lane (k : Lane) : State.reset.lane k = LaneFrontEnd.initial k true := by cases k <;> rfl

@[simp] theorem reset_band (slot : Nat) : State.reset.band slot = none := rfl

@[simp] theorem reset_window (id : Nat) : State.reset.window id = none := rfl

@[simp] theorem reset_filling (k : Lane) : State.reset.bsc.filling.get k = none := PerLane.get_all none k

theorem reset_bsc : State.reset.bsc = BandStore.initial := by
  unfold State.reset
  dsimp only

theorem reset_free : State.reset.bsc.free = List.range Config.slotCount := by rw [reset_bsc, initial_free]

theorem slotsOk_reset : SlotsOk State.reset where
  sorted := List.Pairwise.nil
  once := by
    have bands : State.reset.bsc.bands = [] := rfl
    rw [reset_free, bands, List.map_nil, List.append_nil]
  filling := by simp

theorem pressureOk_reset : PressureOk State.reset where
  entered := fun h => absurd h Bool.false_ne_true
  left := fun _ => by
    rw [reset_free, List.length_range]
    decide

/-- No entry names a slot right after reset: every port is empty. -/
theorem holdersOk_reset : HoldersOk State.reset where
  held := by simp
  filling := by simp
  free := by simp [State.naming, allPorts, ConsumerPort.entries, ConsumerPort.initial]

theorem portsOk_reset : PortsOk State.reset where
  link := by simp [ConsumerPort.initial]
  quiet := by simp [ConsumerPort.initial]
  holder := by simp [State.reset, SharedRecord.initial]
  restart := by simp [State.reset, SharedRecord.initial]

theorem windowsOk_reset : WindowsOk State.reset where
  sorted := List.Pairwise.nil
  ids := by simp
  queued := by
    intro p cls e he
    cases cls <;> simp [ConsumerPort.queue, ConsumerPort.initial] at he
  inFlight := by simp [ConsumerPort.stripWindow, ConsumerPort.initial]
  closing := by simp
  owner := by simp
  adopted := by simp

theorem capacityOk_reset : CapacityOk State.reset where
  fifo := by simp [LaneFrontEnd.initial]
  drain := by simp [LaneFrontEnd.initial]
  pointer := Nat.zero_lt_succ 255
  queues := fun p cls => by cases cls <;> simp [ConsumerPort.queue, ConsumerPort.initial]
  credit := by simp [ConsumerPort.initial]
  requests := by simp [ConsumerPort.initial]
  responses := by simp [ConsumerPort.initial]
  markers := Nat.zero_le _

theorem lanesOk_reset : LanesOk State.reset where
  width := fun k => by rw [reset_lane]; cases k <;> decide
  pendingWidth := by simp [LaneFrontEnd.initial]
  offset := by simp [LaneFrontEnd.initial]
  pendingOffset := by simp [LaneFrontEnd.initial]
  fifo := by simp [LaneFrontEnd.initial]
  edges := by simp [State.reset]

theorem repeatOk_reset : RepeatOk State.reset where
  settings := rfl
  pending := by simp [State.reset, RepeatUnit.initial]
  phase := by decide
  irl := rfl
  stretch := Nat.zero_le _
  unmarked := fun _ => rfl
  mark := rfl
  recorded := rfl

theorem markersOk_reset : MarkersOk State.reset where
  ahead := by simp [State.reset, MarkerUnit.initial]
  ordered := List.Pairwise.nil
  once := List.Pairwise.nil
  fields := by simp [State.reset, MarkerUnit.initial]

theorem logOk_reset : LogOk State.reset := ⟨by decide, rfl, trivial⟩

theorem settled_reset : Settled State.reset where
  arbiter := fun p => by
    rw [arbitrate_eq_self, reset_port]
    exact fun up => absurd rfl up
  stall := fun p => by rw [reset_port]; rfl

/-- Settles O4. -/
theorem resetInvariants : Obligations.ResetInvariants :=
  ⟨Memory.wf_reset, motionOk_initial rfl, logOk_reset, capacityOk_reset, slotsOk_reset, holdersOk_reset, portsOk_reset, windowsOk_reset,
    markersOk_reset, pressureOk_reset, repeatOk_reset, lanesOk_reset, settled_reset⟩

end Sys2Proof.Machine
end

section
/-!
SUPPORT. Seals: what a seal does to the band store (R105, R106), and the stop seal of every lane (R103); the timers of the Motion Unit.
-/

namespace Sys2Proof.Machine

/-! ### One seal -/

/-- A seal of a filling band, by the number of entries that matching made: the slot joins the free list without one, and the band is
HELD by that many otherwise (R105, R106). -/
theorem sealBand_bsc {k : Lane} {slot : Nat} {b : Band} {s : State} (stop : Bool) (filling : s.bsc.filling.get k = some slot)
    (band : s.band slot = some b) : ∃ holders,
    (sealBand k stop s).bsc = if holders = 0 then { s.bsc with
        sealSequence := s.bsc.sealSequence + 1
        filling := s.bsc.filling.set k none
        bands := tableErase s.bsc.bands slot
        free := s.bsc.free ++ [slot]
        pressure := pressureAfter s.bsc.pressure s.bsc.reserve (s.bsc.free ++ [slot]).length }
      else { s.bsc with
        sealSequence := s.bsc.sealSequence + 1
        filling := s.bsc.filling.set k none
        bands := tablePut s.bsc.bands slot { b with sealing := some { sealRecord k stop b s with holders := holders } } } := by
  unfold sealBand
  rw [filling]
  dsimp only
  rw [band]
  dsimp only
  set m := matchBand slot { b with sealing := some (sealRecord k stop b s) }
    (clearFilling k (s.withBsc { s.bsc with sealSequence := s.bsc.sealSequence + 1 })) with hm
  have bsc : m.1.bsc = { s.bsc with sealSequence := s.bsc.sealSequence + 1, filling := s.bsc.filling.set k none } := matchBand_bsc _ _ _
  refine ⟨m.2, ?_⟩
  split
  · rw [freeSlot_bsc, bsc]
  · rw [putBand, State.withBsc_bsc, bsc]

/-- A seal leaves the lane without a filling band, and no other lane (R104, R105). -/
theorem sealBand_filling (k : Lane) (stop : Bool) (s : State) : (sealBand k stop s).bsc.filling = s.bsc.filling.set k none := by
  cases filling : s.bsc.filling.get k with
  | none =>
    rw [← filling, PerLane.set_get]
    unfold sealBand
    rw [filling]
  | some slot =>
    cases band : s.band slot with
    | none =>
      unfold sealBand
      rw [filling]
      dsimp only
      rw [band]
      rfl
    | some b =>
      obtain ⟨n, e⟩ := sealBand_bsc stop filling band
      rw [e]
      split <;> rfl

/-- A seal writes no record but that of its own filling band. -/
theorem sealBand_band_of_ne {k : Lane} {slot : Nat} {s : State} (stop : Bool) (h : s.bsc.filling.get k ≠ some slot) :
    (sealBand k stop s).band slot = s.band slot := by
  cases filling : s.bsc.filling.get k with
  | none =>
    unfold sealBand
    rw [filling]
  | some other =>
    have ne : ¬slot = other := fun e => h (by rw [filling, e])
    cases band : s.band other with
    | none =>
      unfold sealBand
      rw [filling]
      dsimp only
      rw [band]
      rfl
    | some b =>
      obtain ⟨n, e⟩ := sealBand_bsc stop filling band
      unfold State.band
      rw [e]
      split
      · rw [tableGet_erase, if_neg ne]
      · rw [tableGet_put, if_neg ne]

/-- The free list only grows at its tail by a seal (R94, R106). -/
theorem sealBand_free (k : Lane) (stop : Bool) (s : State) : ∃ freed, (sealBand k stop s).bsc.free = s.bsc.free ++ freed := by
  cases filling : s.bsc.filling.get k with
  | none =>
    refine ⟨[], ?_⟩
    unfold sealBand
    rw [filling, List.append_nil]
  | some slot =>
    cases band : s.band slot with
    | none =>
      refine ⟨[], ?_⟩
      unfold sealBand
      rw [filling, List.append_nil]
      dsimp only
      rw [band]
      rfl
    | some b =>
      obtain ⟨n, e⟩ := sealBand_bsc stop filling band
      rw [e]
      split
      · exact ⟨[slot], rfl⟩
      · exact ⟨[], (List.append_nil _).symm⟩

/-- A slot whose band was sealed: it is FREE, or HELD with a seal record of the given stop mark (R103, R105, R106). -/
def SealedAs (stop : Bool) (b : Band) (slot : Nat) (t : State) : Prop :=
  slot ∈ t.bsc.free ∨ ∃ r, t.band slot = some { b with sealing := some r } ∧ r.stopSealed = stop

theorem sealBand_own {k : Lane} {slot : Nat} {b : Band} {s : State} (stop : Bool) (filling : s.bsc.filling.get k = some slot)
    (band : s.band slot = some b) : SealedAs stop b slot (sealBand k stop s) := by
  obtain ⟨n, e⟩ := sealBand_bsc stop filling band
  unfold SealedAs State.band
  rw [e]
  split
  · exact .inl (List.mem_append_right _ (List.mem_singleton.mpr rfl))
  · exact .inr ⟨_, by rw [tableGet_put, if_pos rfl], rfl⟩

theorem SealedAs.sealBand {stop : Bool} {b : Band} {slot : Nat} {s : State} (h : SealedAs stop b slot s) (k : Lane)
    (other : s.bsc.filling.get k ≠ some slot) : SealedAs stop b slot (sealBand k stop s) := by
  rcases h with free | ⟨r, band, mark⟩
  · obtain ⟨freed, e⟩ := sealBand_free k stop s
    exact .inl (by rw [e]; exact List.mem_append_left _ free)
  · exact .inr ⟨r, by rw [sealBand_band_of_ne stop other, band], mark⟩

/-! ### Seals of several lanes -/

theorem foldl_sealBand_filling (stop : Bool) (ks : List Lane) : ∀ (s : State) (j : Lane),
    (ks.foldl (fun s k => sealBand k stop s) s).bsc.filling.get j = if j ∈ ks then none else s.bsc.filling.get j := by
  induction ks with
  | nil => exact fun s j => by simp
  | cons k ks ih =>
    intro s j
    rw [List.foldl_cons, ih, sealBand_filling, PerLane.get_set]
    by_cases h : j = k
    · simp [h]
    · simp [h]

/-- Seals of lanes whose filling band is another one leave a sealed slot sealed. -/
theorem SealedAs.foldl {stop : Bool} {b : Band} {slot : Nat} (ks : List Lane) : ∀ {s : State}, SealedAs stop b slot s →
    (∀ k, s.bsc.filling.get k ≠ some slot) → SealedAs stop b slot (ks.foldl (fun s k => Machine.sealBand k stop s) s) := by
  induction ks with
  | nil => exact fun h _ => h
  | cons k ks ih =>
    intro s h others
    refine ih (h.sealBand k (others k)) fun j => ?_
    rw [sealBand_filling, PerLane.get_set]
    split
    · exact nofun
    · exact others j

/-- Seals of several lanes seal the filling band of each of them, where no two lanes fill one slot. -/
theorem foldl_sealBand_sealed {stop : Bool} {b : Band} {slot : Nat} {j : Lane} (ks : List Lane) : ∀ {s : State}, j ∈ ks →
    (∀ k, s.bsc.filling.get k = some slot ↔ k = j) → s.band slot = some b →
    SealedAs stop b slot (ks.foldl (fun s k => sealBand k stop s) s) := by
  induction ks with
  | nil => exact fun h => nomatch h
  | cons k ks ih =>
    intro s mem only band
    by_cases own : k = j
    · subst own
      refine (sealBand_own stop ((only k).mpr rfl) band).foldl ks fun i => ?_
      rw [sealBand_filling, PerLane.get_set]
      split
      · exact nofun
      next ne => exact fun h => ne ((only i).mp h)
    · have other : s.bsc.filling.get k ≠ some slot := fun h => own ((only k).mp h)
      refine ih ((List.mem_cons.mp mem).resolve_left fun e => own e.symm) (fun i => ?_) ?_
      · rw [sealBand_filling, PerLane.get_set]
        split
        next e => subst e; simp [own]
        · exact only i
      · rw [sealBand_band_of_ne stop other, band]

theorem stopSeal_filling (s : State) (k : Lane) : (stopSeal s).bsc.filling.get k = none := by
  have all : k ∈ allLanes := by cases k <;> simp [allLanes]
  exact (foldl_sealBand_filling true allLanes s k).trans (if_pos all)

/-- The stop seal leaves every FILLING band freed or HELD with STOP_SEALED (R103). -/
theorem stopSeal_sealed {s : State} (slots : SlotsOk s) {slot : Nat} {b : Band} (band : s.band slot = some b) (fills : b.sealing = none) :
    SealedAs true b slot (stopSeal s) := by
  have all : b.lane ∈ allLanes := by cases b.lane <;> simp [allLanes]
  refine foldl_sealBand_sealed allLanes all (fun k => ?_) band
  rw [slots.filling k slot]
  constructor
  · rintro ⟨c, read, lane, -⟩
    rw [band] at read
    cases read
    exact lane.symm
  · rintro rfl
    exact ⟨b, band, rfl, fills⟩

theorem stopSeal_grows (s : State) : PendingGrows s (stopSeal s) :=
  grows_foldl (f := fun s k => sealBand k true s) (fun s k => sealBand_grows k true s) allLanes s

/-! ### The timers -/

theorem State.band_congr {s t : State} (bsc : t.bsc = s.bsc) (slot : Nat) : t.band slot = s.band slot := by rw [State.band, bsc]; rfl

/-- The invariant of the slots speaks of the band store alone. -/
theorem SlotsOk.of_bsc {s t : State} (h : SlotsOk s) (bsc : t.bsc = s.bsc) : SlotsOk t where
  sorted := by rw [bsc]; exact h.sorted
  once := by rw [bsc]; exact h.once
  filling := fun k slot => by
    rw [State.band_congr bsc, bsc]
    exact h.filling k slot

/-- Settles O21. -/
theorem motionTimers : Obligations.MotionTimers := by
  unfold Obligations.MotionTimers
  refine ⟨fun s due gate => ?_, fun s => rfl, fun s due slots timer => ?_⟩
  · show execGateReopen s = _
    rw [execGateReopen, gate]
    rfl
  · set stopped := (s.withNow (max s.now due)).withMu { s.mu with motion := .stopped, stopTimer := none } with hs
    set v := stopSeal stopped with hv
    set u := raiseUp .motion v with hu
    have run : exec .stopTimerExpiry s = .next (settle u) := by
      show execStopTimerExpiry s = _
      rw [execStopTimerExpiry, timer]
      rfl
    have bsc : (settle u).bsc = v.bsc := settle_bsc u
    have moved : State.Agree [.now, .mu, .bsc, .windows, .ports] s stopped :=
      (agree_withNow s _ (by decide)).trans (agree_withMu _ _ (by decide))
    have sealedFrame : State.Agree deliveryParts stopped v := stopSeal_agree stopped
    have raised : State.Agree [.ports] v u := raiseWhere_agree _ _ _ (by decide)
    have ended : State.Agree deliveryParts stopped (settle u) :=
      (sealedFrame.trans (raised.mono (by decide))).trans ((settle_agree u).mono (by decide))
    refine ⟨settle u, run, ended.now (by decide), ended.mu (by decide), ?_, fun k => ?_, fun slot b band fills => ?_, ?_, ?_⟩
    · exact ⟨u, rfl, raiseUp_raisedUp .motion v, raised, fun p => by
        obtain ⟨_, notice, e⟩ := raiseWhere_kept (fun _ c => c.isUp) .motion v p
        exact ⟨notice, by rw [hu, raiseUp, e]; rfl⟩⟩
    · rw [bsc]; exact stopSeal_filling stopped k
    · have sealed : SealedAs true b slot v := stopSeal_sealed (slots.of_bsc (t := stopped) rfl) band fills
      unfold SealedAs at sealed
      rw [settle_band, bsc]
      exact sealed
    · exact ((raiseUp_pending .motion v).of_isUp (stopSeal_grows stopped).isUp).grow (settle_grows u)
    · exact moved.trans (ended.mono (by decide))

end Sys2Proof.Machine
end

section
/-!
SUPPORT. Triggers at a lane (R48 to R56): missing lines and the entries lost as such, the mode and source item, and what a trigger does in
every lane state and source.
-/

namespace Sys2Proof.Machine

/-! ### Lanes written and read -/

@[simp] theorem State.setLane_self (s : State) (k : Lane) : s.setLane k (s.lane k) = s := by
  show s.withLanes (s.lanes.set k (s.lanes.get k)) = s
  rw [PerLane.set_get, State.withLanes_self]

@[simp] theorem State.setLane_setLane (s : State) (k : Lane) (x y : LaneFrontEnd) : (s.setLane k x).setLane k y = s.setLane k y := by
  show (s.withLanes (s.lanes.set k x)).withLanes ((s.lanes.set k x).set k y) = _
  rw [PerLane.set_set]
  rfl

theorem State.lane_congr {s t : State} (lanes : t.lanes = s.lanes) (k : Lane) : t.lane k = s.lane k := by rw [State.lane, lanes]; rfl

theorem updateLane_lane_self (k : Lane) (f : LaneFrontEnd → LaneFrontEnd) (s : State) : (updateLane k f s).lane k = f (s.lane k) :=
  State.lane_setLane_self _ _ _

theorem updateLane_lane_ne {k j : Lane} (f : LaneFrontEnd → LaneFrontEnd) (s : State) (h : j ≠ k) :
    (updateLane k f s).lane j = s.lane j :=
  State.lane_setLane_ne _ _ h

theorem sealBand_lane (k : Lane) (stop : Bool) (s : State) (j : Lane) : (sealBand k stop s).lane j = s.lane j :=
  State.lane_congr ((sealBand_agree k stop s).lanes (by decide)) j

/-! ### Missing lines -/

/-- What a missing line leaves of its lane: all but the stamps, the width and column base, the immediate settings, the checker and the
counters of discards; a checker that is HUNTING with clean run 0 stays so (R52, R53, R56, R63). -/
structure MissingKept (l x : LaneFrontEnd) : Prop where
  state : x.state = l.state
  source : x.source = l.source
  offset : x.offset = l.offset
  pendingMode : x.pendingMode = l.pendingMode
  fifo : x.fifo = l.fifo
  drain : x.drain = l.drain
  noResponse : x.counters.noResponse = l.counters.noResponse
  hunting : l.checker.inStep = false ∧ l.checker.cleanRun = 0 → x.checker.inStep = false ∧ x.checker.cleanRun = 0

theorem MissingKept.trans {l x y : LaneFrontEnd} (h : MissingKept l x) (g : MissingKept x y) : MissingKept l y where
  state := g.state.trans h.state
  source := g.source.trans h.source
  offset := g.offset.trans h.offset
  pendingMode := g.pendingMode.trans h.pendingMode
  fifo := g.fifo.trans h.fifo
  drain := g.drain.trans h.drain
  noResponse := g.noResponse.trans h.noResponse
  hunting := fun hunts => g.hunting (h.hunting hunts)

theorem applyImmediate_kept (l : LaneFrontEnd) : MissingKept l (applyImmediate l) := by
  unfold applyImmediate
  split <;> exact ⟨rfl, rfl, rfl, rfl, rfl, rfl, rfl, id⟩

theorem lanePlaced_missing_kept (stamp rn : Line) (l : LaneFrontEnd) : MissingKept l (lanePlaced stamp rn .missing l) := by
  unfold lanePlaced
  dsimp only
  split
  · exact ⟨rfl, rfl, rfl, rfl, rfl, rfl, rfl, id⟩
  · split <;> exact ⟨rfl, rfl, rfl, rfl, rfl, rfl, rfl, id⟩

theorem checkMissing_kept (l : LaneFrontEnd) : MissingKept l { l with checker := checkMissing l.checker } := by
  refine ⟨rfl, rfl, rfl, rfl, rfl, rfl, rfl, fun ⟨inStep, clean⟩ => ?_⟩
  simp [checkMissing, inStep]

/-- A missing line finds no edge, so no search ends by it and no lane changes (R84). -/
theorem levelLine_missing_lanes (k : Lane) (stamp : Line) (offset : Nat) (s : State) :
    (levelLine k stamp offset none s).lanes = s.lanes := by
  unfold levelLine
  split
  · rfl
  · rfl
  next x _ =>
    split
    · rfl
    next r _ =>
      split
      next waiting =>
        have noEdge : (examine x.request.threshold stamp offset none r).status ≠ .edge := by
          rw [examine, waiting.1]
          exact nofun
        dsimp only
        rw [if_neg noEdge]
        rfl
      · rfl

/-- Of the lanes, a missing line in RUN changes its own alone. -/
theorem runLine_missing_lanes (k : Lane) (w : Line) (offset : Nat) (s : State) :
    ∃ x, (runLine k w offset .missing s).lanes = s.lanes.set k x ∧ MissingKept (s.lane k) x := by
  unfold runLine
  extract_lets stamp early
  split
  · exact ⟨_, rfl, ⟨rfl, rfl, rfl, rfl, rfl, rfl, rfl, id⟩⟩
  · split
    · exact ⟨_, rfl, ⟨rfl, rfl, rfl, rfl, rfl, rfl, rfl, id⟩⟩
    next e _ =>
      refine ⟨_, ?_, lanePlaced_missing_kept stamp e.rn _⟩
      extract_lets placed l bytes stored
      have samples : bytes = none := rfl
      rw [samples, levelLine_missing_lanes, (place_agree _ _).lanes (by decide)]
      rfl

/-- Of the lanes, a missing line changes its own alone. -/
theorem lineEvent_missing_lanes (k : Lane) (w : Line) (offset : Nat) (mode : ActiveMode) (s : State) :
    ∃ x, (lineEvent k w offset mode .missing s).lanes = s.lanes.set k x ∧ MissingKept (s.lane k) x := by
  have commit : (completeCommit k s).lanes = s.lanes :=
    (completeCommit_agree (A := [.cb, .ports]) k s (by decide) (by decide)).lanes (by decide)
  have own : (completeCommit k s).lane k = s.lane k := State.lane_congr commit k
  have begun : (updateLane k applyImmediate (completeCommit k s)).lanes = s.lanes.set k (applyImmediate (s.lane k)) := by
    rw [updateLane, State.setLane_lanes, own, commit]
  have begunOwn : (updateLane k applyImmediate (completeCommit k s)).lane k = applyImmediate (s.lane k) := by
    rw [updateLane_lane_self, own]
  unfold lineEvent
  dsimp only
  split
  · obtain ⟨x, lanes, kept⟩ := runLine_missing_lanes k w offset (updateLane k applyImmediate (completeCommit k s))
    rw [begun, PerLane.set_set] at lanes
    rw [begunOwn] at kept
    exact ⟨x, lanes, (applyImmediate_kept _).trans kept⟩
  · refine ⟨_, ?_, (applyImmediate_kept (s.lane k)).trans (checkMissing_kept _)⟩
    rw [checkLine, updateLane, State.setLane_lanes, begun, PerLane.set_set, begunOwn]
    rfl

/-- The Correction Block after the completion of a commit follows from the block alone (R78). -/
theorem completeCommit_cb_congr (k : Lane) {s t : State} (h : s.cb = t.cb) : (completeCommit k s).cb = (completeCommit k t).cb := by
  unfold completeCommit
  rw [h]
  split
  · exact h
  · split
    · rfl
    · exact h

/-- A commit that was completed is no longer pending (R78). -/
theorem completeCommit_idem (k : Lane) (s : State) : (completeCommit k (completeCommit k s)).cb = (completeCommit k s).cb := by
  cases pending : s.cb.commit with
  | none =>
    have same : completeCommit k s = s := by rw [completeCommit, pending]
    rw [same, same]
  | some c =>
    by_cases own : c.lane = k
    · have done : (completeCommit k s).cb.commit = none := by
        rw [completeCommit, pending]
        dsimp only
        rw [if_pos own]
        rfl
      rw [completeCommit, done]
    · have same : completeCommit k s = s := by
        rw [completeCommit, pending]
        exact if_neg own
      rw [same, same]

/-- A line event reaches the Correction Block by the completion of a commit alone (R53, R79). -/
theorem lineEvent_cb (k : Lane) (w : Line) (offset : Nat) (mode : ActiveMode) (b : LineBody) (s : State) :
    (lineEvent k w offset mode b s).cb = (completeCommit k s).cb := by
  have ran : ∀ s, (runLine k w offset b s).cb = s.cb := by
    intro s
    unfold runLine
    extract_lets stamp early
    split
    · rfl
    · split
      · rfl
      · extract_lets placed l bytes stored
        rw [(levelLine_agree _ _ _ _ _).cb (by decide), (place_agree _ _).cb (by decide)]
        rfl
  unfold lineEvent
  dsimp only
  split
  · rw [ran]; rfl
  · rfl

/-! ### Entries lost as missing lines (R51, R54) -/

/-- The oldest entries of a lane's FIFO, a number of them, were lost as missing lines, each counted as no-response. -/
structure EntriesLost (k : Lane) (n : Nat) (s t : State) : Prop where
  fifo : (t.lane k).fifo = (s.lane k).fifo.drop n
  counted : (t.lane k).counters.noResponse = (s.lane k).counters.noResponse + BitVec.ofNat 32 n
  state : (t.lane k).state = (s.lane k).state
  source : (t.lane k).source = (s.lane k).source
  offset : (t.lane k).offset = (s.lane k).offset
  pendingMode : (t.lane k).pendingMode = (s.lane k).pendingMode
  hunting : (s.lane k).checker.inStep = false ∧ (s.lane k).checker.cleanRun = 0 →
    (t.lane k).checker.inStep = false ∧ (t.lane k).checker.cleanRun = 0
  others : ∀ j, j ≠ k → t.lane j = s.lane j
  commit : (completeCommit k s).cb = s.cb → t.cb = s.cb

theorem EntriesLost.refl (k : Lane) (s : State) : EntriesLost k 0 s s :=
  ⟨rfl, (BitVec.add_zero _).symm, rfl, rfl, rfl, rfl, id, fun _ _ => rfl, fun _ => rfl⟩

theorem EntriesLost.trans {k : Lane} {m n : Nat} {s t u : State} (h : EntriesLost k m s t) (g : EntriesLost k n t u) :
    EntriesLost k (m + n) s u where
  fifo := by rw [g.fifo, h.fifo, List.drop_drop]
  counted := by rw [g.counted, h.counted, BitVec.add_assoc, ← BitVec.ofNat_add]
  state := g.state.trans h.state
  source := g.source.trans h.source
  offset := g.offset.trans h.offset
  pendingMode := g.pendingMode.trans h.pendingMode
  hunting := fun hunts => g.hunting (h.hunting hunts)
  others := fun j ne => (g.others j ne).trans (h.others j ne)
  commit := fun none => by
    have first := h.commit none
    rw [g.commit ((completeCommit_cb_congr k first).trans (none.trans first.symm)), first]

/-- The oldest entry of a FIFO that is not empty, lost (R54). -/
theorem loseOldest_lost {k : Lane} {s : State} {e : FifoEntry} {rest : List FifoEntry} (fifo : (s.lane k).fifo = e :: rest) :
    EntriesLost k 1 s (loseOldest k s) := by
  set taken := updateLane k (fun l => { l with fifo := rest, drain := l.drain - 1 }) s with ht
  set event := lineEvent k e.wln e.offset e.mode .missing taken with hv
  have own : taken.lane k = { s.lane k with fifo := rest, drain := (s.lane k).drain - 1 } := updateLane_lane_self _ _ _
  obtain ⟨x, lanes, kept⟩ := lineEvent_missing_lanes k e.wln e.offset e.mode taken
  rw [own] at kept
  have removed : (removeOldest k .missing s).lanes = taken.lanes.set k x ∧ (removeOldest k .missing s).cb = (completeCommit k s).cb := by
    have cb : event.cb = (completeCommit k s).cb := (lineEvent_cb _ _ _ _ _ taken).trans (completeCommit_cb_congr k rfl)
    unfold removeOldest
    rw [fifo]
    dsimp only
    split
    · exact ⟨((sealBand_agree k false event).lanes (by decide)).trans lanes, ((sealBand_agree k false event).cb (by decide)).trans cb⟩
    · exact ⟨lanes, cb⟩
  obtain ⟨lanes, cb⟩ := removed
  have lane : (removeOldest k .missing s).lane k = x := by rw [State.lane, lanes, PerLane.get_set_self]
  have lost : (loseOldest k s).lane k = { x with counters := { x.counters with noResponse := x.counters.noResponse + 1 } } := by
    rw [loseOldest, countLane, updateLane_lane_self, lane]
  constructor
  case fifo => rw [lost, fifo]; exact kept.fifo
  case counted => rw [lost]; exact congrArg (· + 1) kept.noResponse
  case state => rw [lost]; exact kept.state
  case source => rw [lost]; exact kept.source
  case offset => rw [lost]; exact kept.offset
  case pendingMode => rw [lost]; exact kept.pendingMode
  case hunting => rw [lost]; exact kept.hunting
  case others =>
    intro j ne
    rw [loseOldest, countLane, updateLane_lane_ne _ _ ne, State.lane, lanes, PerLane.get_set_ne _ _ ne]
    exact updateLane_lane_ne _ _ ne
  case commit => exact fun none => cb.trans none

/-- Every entry of a FIFO lost, oldest first (R51). -/
theorem foldl_loseOldest_lost (k : Lane) (es : List FifoEntry) : ∀ {s : State}, (s.lane k).fifo = es →
    EntriesLost k es.length s (es.foldl (fun s _ => loseOldest k s) s) := by
  induction es with
  | nil => exact fun _ => .refl k _
  | cons e es ih =>
    intro s fifo
    have first := loseOldest_lost fifo
    have rest : ((loseOldest k s).lane k).fifo = es := by rw [first.fifo, fifo]; rfl
    have all := first.trans (ih rest)
    rw [Nat.add_comm] at all
    exact all

theorem flushCounted_length (k : Lane) (es : List FifoEntry) :
    ∀ s, flushCounted k es.length s = es.foldl (fun s _ => loseOldest k s) s := by
  induction es with
  | nil => exact fun _ => rfl
  | cons e es ih => exact fun s => ih (loseOldest k s)

/-! ### The mode and source item (R48 to R51) -/

/-- Whether a lane's mode in force leaves RUN (R50). -/
abbrev LeavesRun (old new : LaneState) : Prop := old.mode = some .run ∧ new.mode ≠ some .run

/-- What a lane's change of mode does to its own record at once (R49, R50). -/
def modeChanged (old new : Option ActiveMode) (l : LaneFrontEnd) : LaneFrontEnd :=
  { l with
    lastStamp := if new = some .run ∧ old ≠ some .run then none else l.lastStamp
    bandRn := if new = some .run ∧ old ≠ some .run then none else l.bandRn
    checker := if new = some .check ∧ old ≠ some .check then { l.checker with inStep := false, cleanRun := 0 } else l.checker
    drain := if old = some .run ∧ new ≠ some .run then l.fifo.length else l.drain }

/-- The actions of a change of mode: the lane's own record, and a drain that begins on an empty FIFO seals at once (R49, R50). -/
theorem modeActions_eq (k : Lane) (old new : Option ActiveMode) (s : State) :
    modeActions k old new s =
      if (old = some .run ∧ new ≠ some .run) ∧ (s.lane k).fifo = [] then sealBand k false (updateLane k (modeChanged old new) s)
      else updateLane k (modeChanged old new) s := by
  unfold modeActions
  extract_lets a b d
  have entersRun : a = s.setLane k { s.lane k with
      lastStamp := if new = some .run ∧ old ≠ some .run then none else (s.lane k).lastStamp
      bandRn := if new = some .run ∧ old ≠ some .run then none else (s.lane k).bandRn } := by
    unfold a
    split
    · rfl
    · exact (State.setLane_self s k).symm
  have entersCheck : b = a.setLane k { a.lane k with
      checker := if new = some .check ∧ old ≠ some .check then { (a.lane k).checker with inStep := false, cleanRun := 0 }
        else (a.lane k).checker } := by
    unfold b
    split
    · rfl
    · exact (State.setLane_self a k).symm
  rw [entersRun, State.lane_setLane_self, State.setLane_setLane] at entersCheck
  by_cases leaves : old = some .run ∧ new ≠ some .run
  · have drains : d = updateLane k (modeChanged old new) s := by
      unfold d updateLane modeChanged
      rw [entersCheck, State.lane_setLane_self, State.setLane_setLane]
      simp only [if_pos leaves]
    have count : ((updateLane k (modeChanged old new) s).lane k).drain = (s.lane k).fifo.length := by
      rw [updateLane_lane_self, modeChanged]
      exact if_pos leaves
    rw [if_pos leaves, drains, count]
    simp only [List.length_eq_zero_iff, leaves, ne_eq, not_false_eq_true, and_self, true_and]
  · rw [if_neg leaves, if_neg fun h => leaves h.1, entersCheck]
    unfold updateLane modeChanged
    simp only [if_neg leaves]

/-- Everything that a change of a lane's state does (R48, R79, R85). -/
structure StateChanged (k : Lane) (new : LaneState) (s t : State) : Prop where
  own : t.lane k = { s.lane k with state := new }
  others : ∀ j, j ≠ k → ∃ offset, t.lane j = { s.lane j with pendingOffset := offset }
  quiet : ¬((s.lane k).state = .active .run ∧ new ≠ .active .run) → t.le = s.le ∧ ∀ j, j ≠ k → t.lane j = s.lane j
  cb : t.cb = if (s.lane k).state ≠ new ∧ (new = .off ∨ new.isFault = true) then (completeCommit k s).cb else s.cb
  raised : (s.lane k).state.isFault ≠ new.isFault → PendingUp .lane s t

theorem changeState_spec (k : Lane) (new : LaneState) (s : State) : StateChanged k new s (changeState k new s) := by
  unfold changeState
  extract_lets old a b c
  have aLane : a.lane k = { s.lane k with state := new } := updateLane_lane_self _ _ _
  have bLanes : b.lanes = a.lanes := by unfold b; split <;> rfl
  have bLe : b.le = s.le := by unfold b; split <;> rfl
  have bCb : b.cb = s.cb := by unfold b; split <;> rfl
  have cLanes : c.lanes = a.lanes := by
    unfold c
    split
    · rw [(completeCommit_agree (A := [.cb, .ports]) k b (by decide) (by decide)).lanes (by decide), bLanes]
    · exact bLanes
  have cLe : c.le = s.le := by
    unfold c
    split
    · rw [(completeCommit_agree (A := [.cb, .ports]) k b (by decide) (by decide)).le (by decide), bLe]
    · exact bLe
  have cCb : c.cb = if old ≠ new ∧ (new = .off ∨ new.isFault = true) then (completeCommit k s).cb else s.cb := by
    unfold c
    split
    · exact completeCommit_cb_congr k bCb
    · exact bCb
  have cGrows : PendingGrows b c := by
    unfold c
    exact grows_ite (completeCommit_raises k b).grows (.refl b)
  have raised : old.isFault ≠ new.isFault → PendingUp .lane s c := by
    intro differ
    refine PendingUp.grow ?_ cGrows
    unfold b
    rw [if_pos differ]
    exact raiseUp_pending .lane a
  by_cases leaves : old = .active .run ∧ new ≠ .active .run
  · rw [if_pos leaves]
    constructor
    case own => rw [levelLeavesRun_own, State.lane_congr cLanes, aLane]
    case others =>
      intro j ne
      obtain ⟨offset, e⟩ := levelLeavesRun_lane k c j
      exact ⟨offset, by rw [e, State.lane_congr cLanes, updateLane_lane_ne _ _ ne]⟩
    case quiet => exact fun h => absurd leaves h
    case cb => rw [(levelLeavesRun_agree k c).cb (by decide), cCb]
    case raised => exact fun differ => (raised differ).grow (levelLeavesRun_raises k c).grows
  · rw [if_neg leaves]
    have others : ∀ j, j ≠ k → c.lane j = s.lane j := fun j ne => by rw [State.lane_congr cLanes, updateLane_lane_ne _ _ ne]
    exact ⟨by rw [State.lane_congr cLanes, aLane], fun j ne => ⟨_, others j ne⟩, fun _ => ⟨cLe, others⟩, cCb, raised⟩

theorem applyOffset_eq (l : LaneFrontEnd) : applyOffset l = { l with offset := l.pendingOffset.getD l.offset, pendingOffset := none } := by
  unfold applyOffset
  cases h : l.pendingOffset with
  | none => cases l; simp_all
  | some o => rfl

/-- A lane with its offset item and its mode and source item taken from it (R48). -/
def LaneFrontEnd.itemsTaken (l : LaneFrontEnd) : LaneFrontEnd :=
  { l with offset := l.pendingOffset.getD l.offset, pendingOffset := none, pendingMode := none }

/-- The state in which a lane has its new state and the record that its change of mode leaves, before any seal (R48 to R50). -/
def modeEntered (k : Lane) (new : LaneState) (s : State) : State :=
  updateLane k (modeChanged (s.lane k).state.mode new.mode) (changeState k new (s.setLane k (s.lane k).itemsTaken))

/-- The state after the actions of the change of mode: a drain that begins on an empty FIFO has sealed (R50). -/
def modeSettled (k : Lane) (new : LaneState) (s : State) : State :=
  if LeavesRun (s.lane k).state new ∧ (s.lane k).fifo = [] then sealBand k false (modeEntered k new s) else modeEntered k new s

/-- Everything that the first part of the mode and source item does: the lane's new record, and the rest of the state (R48 to R50). -/
structure ModeEntered (k : Lane) (new : LaneState) (s c : State) : Prop where
  own : c.lane k = modeChanged (s.lane k).state.mode new.mode { (s.lane k).itemsTaken with state := new }
  others : ∀ j, j ≠ k → ∃ offset, c.lane j = { s.lane j with pendingOffset := offset }
  quiet : ¬((s.lane k).state = .active .run ∧ new ≠ .active .run) → c.le = s.le ∧ ∀ j, j ≠ k → c.lane j = s.lane j
  cb : c.cb = if (s.lane k).state ≠ new ∧ (new = .off ∨ new.isFault = true) then (completeCommit k s).cb else s.cb
  raised : (s.lane k).state.isFault ≠ new.isFault → PendingUp .lane s c
  agree : State.Agree stateParts s c

theorem modeEntered_spec (k : Lane) (new : LaneState) (s : State) : ModeEntered k new s (modeEntered k new s) := by
  set a := s.setLane k (s.lane k).itemsTaken with ha
  have change : StateChanged k new a (changeState k new a) := changeState_spec k new a
  have lane : a.lane k = (s.lane k).itemsTaken := State.lane_setLane_self _ _ _
  have state : (a.lane k).state = (s.lane k).state := by rw [lane]; rfl
  have other : ∀ j, j ≠ k → a.lane j = s.lane j := fun j ne => State.lane_setLane_ne _ _ ne
  constructor
  case own => rw [modeEntered, updateLane_lane_self, change.own, lane]
  case others =>
    intro j ne
    obtain ⟨offset, e⟩ := change.others j ne
    exact ⟨offset, by rw [modeEntered, updateLane_lane_ne _ _ ne, e, other j ne]⟩
  case quiet =>
    intro stays
    rw [← state] at stays
    obtain ⟨le, lanes⟩ := change.quiet stays
    exact ⟨le, fun j ne => by rw [modeEntered, updateLane_lane_ne _ _ ne, lanes j ne, other j ne]⟩
  case cb =>
    have commit : (completeCommit k a).cb = (completeCommit k s).cb := completeCommit_cb_congr k rfl
    have cb := change.cb
    rw [state, commit] at cb
    exact cb
  case raised =>
    intro differ
    rw [← state] at differ
    exact change.raised differ
  case agree =>
    exact ((agree_setLane s k _ (by decide)).trans (changeState_agree k new a)).trans (updateLane_agree k _ _ (by decide))

/-- The items at a repeat-start mark, with a mode and source item pending: the change of mode, then that of the source (R48). -/
theorem applyRepeatStart_item {k : Lane} {s : State} {m : LaneMode} {src : Source} (item : (s.lane k).pendingMode = some (m, src)) :
    applyRepeatStart k s = sourceActions k src (modeSettled k ((s.lane k).state.afterMode (s.lane k).linkUp m) s) := by
  have offset : updateLane k applyOffset s
      = s.setLane k { s.lane k with offset := (s.lane k).pendingOffset.getD (s.lane k).offset, pendingOffset := none } := by
    rw [updateLane, applyOffset_eq]
  set new := (s.lane k).state.afterMode (s.lane k).linkUp m
  have fifo : ((changeState k new (s.setLane k (s.lane k).itemsTaken)).lane k).fifo = (s.lane k).fifo := by
    rw [(changeState_spec k new _).own, State.lane_setLane_self]; rfl
  have acted : modeActions k (s.lane k).state.mode new.mode (changeState k new (s.setLane k (s.lane k).itemsTaken))
      = modeSettled k new s := by
    rw [modeActions_eq, fifo]
    rfl
  unfold applyRepeatStart
  rw [offset]
  dsimp only
  rw [State.lane_setLane_self]
  dsimp only
  rw [item]
  dsimp only
  unfold applyModeItem updateLane
  simp only [State.lane_setLane_self, State.setLane_setLane]
  exact congrArg (sourceActions k src) acted

theorem sourceActions_same {k : Lane} {src : Source} {s : State} (h : src = (s.lane k).source) : sourceActions k src s = s := if_pos h

/-- A change of source: every entry lost under the old source, the drain ended, and the filling band sealed (R51, log 13). -/
theorem sourceActions_changed {k : Lane} {src : Source} {s : State} (h : src ≠ (s.lane k).source) :
    sourceActions k src s = let u := (s.lane k).fifo.foldl (fun s _ => loseOldest k s) s
      sealBand k false (u.setLane k { u.lane k with drain := 0, source := src }) := by
  unfold sourceActions
  rw [if_neg h, flushCounted_length]
  rfl

theorem modeSettled_agree (k : Lane) (new : LaneState) (s : State) :
    State.Agree deliveryParts (modeEntered k new s) (modeSettled k new s) :=
  agree_ite (fun _ => sealBand_agree k false _) fun _ => .refl _ _

theorem modeSettled_grows (k : Lane) (new : LaneState) (s : State) : PendingGrows (modeEntered k new s) (modeSettled k new s) :=
  grows_ite (sealBand_grows k false _) (.refl _)

theorem modeSettled_lane (k : Lane) (new : LaneState) (s : State) (j : Lane) :
    (modeSettled k new s).lane j = (modeEntered k new s).lane j := State.lane_congr ((modeSettled_agree k new s).lanes (by decide)) j

/-- A lane's new record keeps its FIFO, its source and its counters (R48 to R50). -/
theorem ModeEntered.lane {k : Lane} {new : LaneState} {s c : State} (h : ModeEntered k new s c) :
    (c.lane k).state = new ∧ (c.lane k).fifo = (s.lane k).fifo ∧ (c.lane k).source = (s.lane k).source
    ∧ (c.lane k).counters = (s.lane k).counters ∧ (c.lane k).offset = (s.lane k).pendingOffset.getD (s.lane k).offset
    ∧ (c.lane k).pendingMode = none := by
  rw [h.own]
  exact ⟨rfl, rfl, rfl, rfl, rfl, rfl⟩

/-- What every mode and source item leaves, whatever becomes of the source (R48 to R51). -/
structure ItemApplied (k : Lane) (new : LaneState) (src : Source) (s t : State) : Prop where
  state : (t.lane k).state = new
  source : (t.lane k).source = src
  offset : (t.lane k).offset = (s.lane k).pendingOffset.getD (s.lane k).offset
  pendingMode : (t.lane k).pendingMode = none
  cb : (s.lane k).state ≠ new → (new = .off ∨ new.isFault = true) → t.cb = (completeCommit k s).cb
  hunting : new.mode = some .check → (s.lane k).state.mode ≠ some .check →
    (t.lane k).checker.inStep = false ∧ (t.lane k).checker.cleanRun = 0

theorem modeSettled_applied (k : Lane) (new : LaneState) (s : State) :
    ItemApplied k new (s.lane k).source s (modeSettled k new s) := by
  have entered := modeEntered_spec k new s
  obtain ⟨state, fifo, source, counters, offset, pendingMode⟩ := entered.lane
  have lane := modeSettled_lane k new s k
  constructor
  case state => rw [lane, state]
  case source => rw [lane, source]
  case offset => rw [lane, offset]
  case pendingMode => rw [lane, pendingMode]
  case cb =>
    intro changed inactive
    rw [(modeSettled_agree k new s).cb (by decide), entered.cb, if_pos ⟨changed, inactive⟩]
  case hunting =>
    intro check left
    rw [lane, entered.own, modeChanged]
    simp only [if_pos (And.intro check left), and_self]

/-- The state after a change of source, from the state that the change of mode left (R51). -/
structure SourceChanged (k : Lane) (src : Source) (s t : State) : Prop where
  fifo : (t.lane k).fifo = []
  drain : (t.lane k).drain = 0
  source : (t.lane k).source = src
  filling : t.bsc.filling.get k = none
  counted : (t.lane k).counters.noResponse = (s.lane k).counters.noResponse + BitVec.ofNat 32 (s.lane k).fifo.length
  state : (t.lane k).state = (s.lane k).state
  offset : (t.lane k).offset = (s.lane k).offset
  pendingMode : (t.lane k).pendingMode = (s.lane k).pendingMode
  hunting : (s.lane k).checker.inStep = false ∧ (s.lane k).checker.cleanRun = 0 →
    (t.lane k).checker.inStep = false ∧ (t.lane k).checker.cleanRun = 0
  commit : (completeCommit k s).cb = s.cb → t.cb = s.cb

theorem sourceActions_spec {k : Lane} {src : Source} {s : State} (h : src ≠ (s.lane k).source) :
    SourceChanged k src s (sourceActions k src s) := by
  have lost := foldl_loseOldest_lost k _ (rfl : (s.lane k).fifo = (s.lane k).fifo)
  rw [sourceActions_changed h]
  set u := (s.lane k).fifo.foldl (fun s _ => loseOldest k s) s
  set x : LaneFrontEnd := { u.lane k with drain := 0, source := src } with hx
  have own : (sealBand k false (u.setLane k x)).lane k = x := by rw [sealBand_lane, State.lane_setLane_self]
  constructor
  case fifo => rw [own]; exact lost.fifo.trans List.drop_length
  case drain => rw [own]
  case source => rw [own]
  case filling => rw [sealBand_filling, PerLane.get_set_self]
  case counted => rw [own]; exact lost.counted
  case state => rw [own]; exact lost.state
  case offset => rw [own]; exact lost.offset
  case pendingMode => rw [own]; exact lost.pendingMode
  case hunting => rw [own]; exact lost.hunting
  case commit => rw [(sealBand_agree k false _).cb (by decide)]; exact lost.commit

theorem ItemApplied.changeSource {k : Lane} {new : LaneState} {old src : Source} {s v t : State} (h : ItemApplied k new old s v)
    (changed : SourceChanged k src v t) : ItemApplied k new src s t where
  state := changed.state.trans h.state
  source := changed.source
  offset := changed.offset.trans h.offset
  pendingMode := changed.pendingMode.trans h.pendingMode
  cb := fun differs inactive => by
    have completed := h.cb differs inactive
    rw [changed.commit ((completeCommit_cb_congr k completed).trans ((completeCommit_idem k s).trans completed.symm)), completed]
  hunting := fun check left => changed.hunting (h.hunting check left)

/-- The mode and source item leaves its marks at the lane, with the source as it was or changed (R48 to R51). -/
theorem sourceActions_applied (k : Lane) (new : LaneState) (src : Source) (s : State) :
    ItemApplied k new src s (sourceActions k src (modeSettled k new s)) := by
  have settled := modeSettled_applied k new s
  by_cases same : src = ((modeSettled k new s).lane k).source
  · rw [sourceActions_same same, same, settled.source]
    exact settled
  · exact settled.changeSource (sourceActions_spec same)

/-- With the source as it was, only the change of mode acts on the lane's stamps, drain and filling band (R49, R50). -/
theorem modeSettled_sameSource (k : Lane) (new : LaneState) (s : State) : let l := s.lane k
    let t := modeSettled k new s
    (t.lane k).fifo = l.fifo ∧ (t.lane k).counters = l.counters
    ∧ (new.mode = some .run → l.state.mode ≠ some .run → (t.lane k).lastStamp = none ∧ (t.lane k).bandRn = none)
    ∧ (l.state.mode = some .run → new.mode ≠ some .run →
      (t.lane k).drain = l.fifo.length ∧ (l.fifo = [] → t.bsc.filling.get k = none))
    ∧ (l.state.mode = new.mode →
      (t.lane k).lastStamp = l.lastStamp ∧ (t.lane k).bandRn = l.bandRn ∧ (t.lane k).drain = l.drain ∧ t.bsc = s.bsc) := by
  intro l t
  have entered := modeEntered_spec k new s
  obtain ⟨state, fifo, source, counters, offset, pendingMode⟩ := entered.lane
  have lane : t.lane k = _ := (modeSettled_lane k new s k).trans entered.own
  refine ⟨(congrArg _ (modeSettled_lane k new s k)).trans fifo, (congrArg _ (modeSettled_lane k new s k)).trans counters,
    fun run left => ?_, fun run left => ?_, fun kept => ?_⟩
  · rw [lane, modeChanged]
    exact ⟨if_pos ⟨run, left⟩, if_pos ⟨run, left⟩⟩
  · refine ⟨?_, fun empty => ?_⟩
    · rw [lane, modeChanged]
      exact if_pos ⟨run, left⟩
    · have sealed : t = sealBand k false (modeEntered k new s) := if_pos ⟨⟨run, left⟩, empty⟩
      rw [sealed, sealBand_filling, PerLane.get_set_self]
  · have notEntered : ∀ m, ¬(new.mode = some m ∧ l.state.mode ≠ some m) := fun m h => h.2 (kept.trans h.1)
    have notLeft : ¬LeavesRun l.state new := fun h => h.2 (kept.symm.trans h.1)
    have unsealed : t = modeEntered k new s := if_neg fun h => notLeft h.1
    refine ⟨?_, ?_, ?_, ?_⟩
    · rw [lane, modeChanged]; exact if_neg (notEntered .run)
    · rw [lane, modeChanged]; exact if_neg (notEntered .run)
    · rw [lane, modeChanged]; exact if_neg notLeft
    · rw [unsealed, entered.agree.bsc (by decide)]

/-! ### The state that a pending mode gives -/

theorem LaneState.inactive_iff (st : LaneState) : (st = .off ∨ st.isFault = true) ↔ ∀ a, st ≠ .active a := by
  cases st with
  | off => simp
  | active m => simp [LaneState.isFault]
  | fault m => simp [LaneState.isFault]

/-- A lane in RUN whose mode in force stays RUN is in RUN still: no pending mode takes it to FAULT (R48). -/
theorem afterMode_leavesRun {st : LaneState} {linkUp : Bool} {m : LaneMode} (h : ¬LeavesRun st (st.afterMode linkUp m)) :
    ¬(st = .active .run ∧ st.afterMode linkUp m ≠ .active .run) := by
  rintro ⟨rfl, ne⟩
  cases m with
  | off => exact h ⟨rfl, nofun⟩
  | active a =>
    cases a with
    | run => exact ne rfl
    | check => exact h ⟨rfl, nofun⟩

/-- LANE is owed to an entry to or an exit from FAULT (R48). -/
theorem isFault_ne {old new : LaneState} (h : (∃ a, old = .fault a) ∧ new = .off ∨ old = .off ∧ ∃ a, new = .fault a) :
    old.isFault ≠ new.isFault := by
  rcases h with ⟨⟨a, rfl⟩, rfl⟩ | ⟨rfl, a, rfl⟩
  · exact nofun
  · exact nofun

/-! ### Triggers -/

/-- A trigger at a lane with camera source joins the FIFO, of which a full one loses its oldest entry first (R54). -/
theorem handleTrigger_camera {k : Lane} {s : State} {m : ActiveMode} (w : Line) (active : (s.lane k).state = .active m)
    (camera : (s.lane k).source = .camera) : let u := if 4 ≤ (s.lane k).fifo.length then loseOldest k s else s
    handleTrigger k w s = updateLane k (fun l => { l with fifo := l.fifo ++ [{ wln := w, offset := l.offset, mode := m }] }) u := by
  unfold handleTrigger
  dsimp only
  rw [active]
  dsimp only
  rw [camera]
  rfl

theorem handleTrigger_test {k : Lane} {s : State} {m : ActiveMode} (w : Line) (active : (s.lane k).state = .active m)
    (test : (s.lane k).source ≠ .camera) : handleTrigger k w s = lineEvent k w (s.lane k).offset m .test s := by
  unfold handleTrigger
  dsimp only
  rw [active]
  dsimp only
  cases source : (s.lane k).source with
  | camera => exact absurd source test
  | ramp => rfl
  | flat => rfl

theorem handleTrigger_full {k : Lane} {s : State} {m : ActiveMode} (w : Line) (active : (s.lane k).state = .active m)
    (camera : (s.lane k).source = .camera) (full : (s.lane k).fifo.length = 4) : let t := handleTrigger k w s
    let u := loseOldest k s
    t = u.setLane k { u.lane k with fifo := (u.lane k).fifo ++ [{ wln := w, offset := (s.lane k).offset, mode := m }] }
    ∧ (t.lane k).fifo = (s.lane k).fifo.tail ++ [{ wln := w, offset := (s.lane k).offset, mode := m }]
    ∧ (t.lane k).counters.noResponse = (s.lane k).counters.noResponse + 1
    ∧ (∀ j, j ≠ k → t.lane j = s.lane j) ∧ State.Agree lineParts s t := by
  intro t u
  obtain ⟨e, rest, fifo⟩ := List.exists_cons_of_length_pos (l := (s.lane k).fifo) (by omega)
  have lost : EntriesLost k 1 s u := loseOldest_lost fifo
  have appended : t = u.setLane k { u.lane k with fifo := (u.lane k).fifo ++ [{ wln := w, offset := (s.lane k).offset, mode := m }] } := by
    rw [← lost.offset]
    refine (handleTrigger_camera w active camera).trans ?_
    rw [if_pos (Nat.le_of_eq full.symm)]
    rfl
  refine ⟨appended, ?_, ?_, fun j ne => ?_, handleTrigger_agree k w s⟩
  · rw [appended, State.lane_setLane_self]
    show (u.lane k).fifo ++ _ = _
    rw [lost.fifo, List.drop_one]
  · rw [appended, State.lane_setLane_self]
    exact lost.counted
  · rw [appended, State.lane_setLane_ne _ _ ne, lost.others j ne]

/-- Settles O35: the FIFO by `handleTrigger_full`, the items at the mark by `applyRepeatStart_item`. -/
theorem triggerTaken : Obligations.TriggerTaken := by
  unfold Obligations.TriggerTaken
  refine ⟨fun s k w => ⟨fun off => ?_, fun m active camera => ⟨fun room => ?_, handleTrigger_full w active camera⟩⟩, fun s w mark => rfl,
    fun s k w m => ⟨handleTrigger_test w, fun fault => ?_⟩, fun l w => ⟨fun ramp => ?_, fun flat => ?_⟩, fun s k => rfl, fun s k => ?_⟩
  · rw [handleTrigger, off]
  · refine (handleTrigger_camera w active camera).trans ?_
    rw [if_neg (Nat.not_le.mpr room)]
    rfl
  · rw [handleTrigger, fault]
  · simp [LineBody.samples, testLine, ramp]
  · simp [LineBody.samples, testLine, flat]
  · intro l t
    refine ⟨fun noItem => ?_, ?_⟩
    · show applyRepeatStart k s = _
      have pending : ((updateLane k applyOffset s).lane k).pendingMode = none := by
        rw [updateLane_lane_self, applyOffset_eq]
        exact noItem
      unfold applyRepeatStart
      dsimp only
      rw [pending, updateLane, applyOffset_eq]
    · intro m src item new
      have afterMode : new = l.state.afterMode l.linkUp m := by
        unfold new
        cases m <;> cases l.state <;> rfl
      have applies : t = sourceActions k src (modeSettled k new s) := by
        rw [afterMode]
        exact applyRepeatStart_item item
      have quietRun : ¬LeavesRun l.state new → ¬(l.state = .active .run ∧ new ≠ .active .run) := by
        rw [afterMode]
        exact afterMode_leavesRun
      clear_value new
      clear afterMode
      have entered := modeEntered_spec k new s
      set c := modeEntered k new s with hc
      set v := modeSettled k new s with hv
      have applied : ItemApplied k new src s t := by rw [applies]; exact sourceActions_applied k new src s
      obtain ⟨cState, cFifo, cSource, cCounters, cOffset, cPending⟩ := entered.lane
      have vLane : v.lane k = c.lane k := modeSettled_lane k new s k
      have vSource : (v.lane k).source = l.source := by rw [vLane, cSource]
      have vFifo : (v.lane k).fifo = l.fifo := by rw [vLane, cFifo]
      have sameSource : src = l.source → t = v := fun same => by rw [applies, sourceActions_same (same.trans vSource.symm)]
      have newSource : src ≠ l.source → SourceChanged k src v t := fun differs => by
        rw [applies]
        exact sourceActions_spec fun e => differs (e.trans vSource)
      have grows : PendingGrows c t := by
        rw [applies]
        exact (modeSettled_grows k new s).trans (sourceActions_grows k src v)
      refine ⟨applied.state, applied.source, applied.offset, applied.pendingMode, ?_, ?_, applied.hunting, ?_, ?_, ⟨c, v, ?_⟩,
        applyRepeatStart_agree k s⟩
      · exact fun fault => (entered.raised (isFault_ne fault)).grow grows
      · exact fun differs inactive => applied.cb differs ((LaneState.inactive_iff new).mpr inactive)
      · intro same
        rw [sameSource same]
        exact modeSettled_sameSource k new s
      · intro differs
        have changed := newSource differs
        refine ⟨changed.fifo, changed.drain, changed.filling, ?_⟩
        rw [changed.counted, vFifo, vLane, cCounters]
      · refine ⟨entered.own, entered.others, fun stays => entered.quiet (quietRun stays), fun kept => ?_, fun differs inactive => ?_,
          entered.agree, rfl, sameSource, fun differs => ?_⟩
        · rw [entered.cb, if_neg]
          rintro ⟨ne, inactive⟩
          rcases kept with same | ⟨a, active⟩
          · exact ne same
          · exact (LaneState.inactive_iff new).mp inactive a active
        · rw [entered.cb, if_pos ⟨differs, (LaneState.inactive_iff new).mpr inactive⟩]
        · rw [applies, sourceActions_changed fun e => differs (e.trans vSource), vFifo]

end Sys2Proof.Machine
end

section
/-!
SUPPORT. The Repeat Unit at a due line: the phase advance, a pending restart, the window-end check (R19 to R34), and what each of them
does to the log, the phase and the lock.
-/

namespace Sys2Proof.Machine

/-! ### The Repeat Unit after an opening -/

/-- The Repeat Unit after a repeat opened at a due line, before a restart labels the new entry (R21, R22, R38). -/
def RepeatUnit.opened (u : RepeatUnit) (w : Line) (irregular : Bool) : RepeatUnit :=
  recordLock { closeAndAppend w irregular u with
    settings := u.pendingSettings.getD u.settings, pendingSettings := none
    chain := if u.pendingSettings.isSome then none else u.chain
    lock := u.lockOpened, misses := u.missesOpened }

/-- The Repeat Unit after a pending restart was applied at a due line: the one new repeat, labelled, and no restart (R33, R34). -/
def RepeatUnit.restarted (u : RepeatUnit) (kind : RestartKind) (w : Line) (irregular : Bool) : RepeatUnit :=
  { labelRestart kind (u.opened w irregular) with restart := none }

theorem openRepeat_none_ru (w : Line) (s : State) : (openRepeat w none s).ru = s.ru.opened w false := (openRepeat_spec w none s).1

theorem openRepeat_some_ru (w : Line) (kind : RestartKind) (s : State) :
    (openRepeat w (some kind) s).ru = labelRestart kind (s.ru.opened w true) := (openRepeat_spec w (some kind) s).1

/-- REPEAT was raised once, at an opening from a state, and LOCK where the pending settings changed the lock (R21, R38). -/
def OpeningRaised (s t : State) : Prop := ∀ p, (t.port p).pendingSet =
  if (s.port p).isUp then NoticeSet.add (lockRaised s.ru (s.port p)) .repeatOpened else (s.port p).pendingSet

theorem openRepeat_raised (w : Line) (cause : Option RestartKind) (s : State) : OpeningRaised s (openRepeat w cause s) :=
  (openRepeat_spec w cause s).2

/-! ### The steps of a due line -/

/-- The current repeat goes on at the next due line: the phase stays below its end (R20, R24). -/
abbrev RepeatUnit.GoesOn (u : RepeatUnit) : Prop := (u.phase : Int) + 256 < u.settings.length + 256 * u.stretch

theorem phaseAdvance_on {w : Line} {s : State} (on : s.ru.GoesOn) :
    phaseAdvance w s = s.withRu { s.ru with phase := s.ru.phase + 256 } := if_pos (by exact_mod_cast on)

theorem phaseAdvance_end {w : Line} {s : State} {phase : Nat}
    (remainder : (phase : Int) = s.ru.phase + 256 - (s.ru.settings.length + 256 * s.ru.stretch)) :
    phaseAdvance w s = openRepeat w none (s.withRu { s.ru with phase := phase }) := by
  have past : ¬((s.ru.phase + 256 : Nat) : Int) < s.ru.endPhase := by
    unfold RepeatUnit.endPhase
    omega
  have same : (((s.ru.phase + 256 : Nat) : Int) - s.ru.endPhase).toNat = phase := by
    unfold RepeatUnit.endPhase
    omega
  unfold phaseAdvance
  dsimp only
  rw [if_neg past, same]

/-- An opening by phase advance: the opened unit with the remainder as its phase, and the notices of an opening (R20, R21). -/
theorem phaseAdvance_opens {w : Line} {s : State} (past : ¬s.ru.GoesOn) :
    (∃ phase : Nat, (phase : Int) = s.ru.phase + 256 - (s.ru.settings.length + 256 * s.ru.stretch)
      ∧ (phaseAdvance w s).ru = { s.ru.opened w false with phase := phase })
    ∧ OpeningRaised s (phaseAdvance w s) := by
  obtain ⟨phase, remainder⟩ := Int.eq_ofNat_of_zero_le (a := s.ru.phase + 256 - (s.ru.settings.length + 256 * s.ru.stretch)) (by omega)
  rw [phaseAdvance_end remainder.symm]
  exact ⟨⟨phase, remainder.symm, openRepeat_none_ru w _⟩, openRepeat_raised w none (s.withRu _)⟩

theorem restartStep_none {w : Line} {s : State} (none : s.ru.restart = none) : restartStep w s = s := by
  unfold restartStep
  rw [none]

theorem restartStep_relabels {w : Line} {s : State} {kind : RestartKind} (restart : s.ru.restart = some kind)
    (start : s.ru.newest.start = w) :
    restartStep w s = s.withRu { recordLock (labelRestart kind s.ru) with restart := none } := by
  unfold restartStep
  rw [restart]
  dsimp only
  rw [if_pos start]
  rfl

theorem restartStep_closes {w : Line} {s : State} {kind : RestartKind} (restart : s.ru.restart = some kind)
    (start : s.ru.newest.start ≠ w) :
    restartStep w s = (openRepeat w (some kind) s).withRu { (openRepeat w (some kind) s).ru with restart := none } := by
  unfold restartStep
  rw [restart]
  dsimp only
  rw [if_neg start]

/-- A pending restart in a repeat that goes on closes it early, with IRREGULAR_END (R34). -/
theorem restart_closes_early {w : Line} {s : State} {kind : RestartKind} (restart : s.ru.restart = some kind)
    (start : s.ru.newest.start ≠ w) (on : s.ru.GoesOn) : let v := restartStep w (phaseAdvance w s)
    v.ru = s.ru.restarted kind w true ∧ OpeningRaised s v := by
  rw [phaseAdvance_on on, restartStep_closes (by exact restart) (by exact start)]
  refine ⟨?_, openRepeat_raised w (some kind) (s.withRu _)⟩
  rw [State.withRu_ru, openRepeat_some_ru]
  rfl

/-- A pending restart relabels the repeat that the phase advance has just opened (R33). -/
theorem restart_relabels {w : Line} {s : State} {kind : RestartKind} (restart : s.ru.restart = some kind) (past : ¬s.ru.GoesOn) :
    let v := restartStep w (phaseAdvance w s)
    v.ru = s.ru.restarted kind w false ∧ OpeningRaised s v := by
  obtain ⟨⟨phase, _, ru⟩, raised⟩ := phaseAdvance_opens (w := w) past
  rw [restartStep_relabels (by rw [ru]; exact restart) (by rw [ru]; rfl)]
  refine ⟨?_, raised⟩
  rw [State.withRu_ru, ru]
  rfl

/-- The window of the current repeat ends at a due line without its mark (R29). -/
def WindowMissed (w : Line) (s : State) : Prop :=
  (s.ru.lock = .locked ∨ s.ru.lock = .coast) ∧ s.ru.accepted = false
    ∧ s.ru.newest.firstIrl + (w - s.ru.newest.start).toNat = s.ru.settings.m + s.ru.settings.wc + 1

theorem windowEnd_quiet {w : Line} {s : State} (h : ¬WindowMissed w s) : windowEnd w s = s :=
  if_neg fun ⟨lock, irl, accepted⟩ => h ⟨lock, accepted, irl⟩

theorem windowEnd_missed {w : Line} {s : State} (h : WindowMissed w s) :
    windowEnd w s = if s.ru.settings.kmiss ≤ s.ru.misses + 1 then
        goLock .hunt (s.withRu { s.ru with misses := s.ru.misses + 1, chain := none })
      else goLock .coast (s.withRu { s.ru with misses := s.ru.misses + 1 }) := by
  obtain ⟨lock, accepted, irl⟩ := h
  exact if_pos ⟨lock, irl, accepted⟩

/-- The chain expiry check has nothing to do outside HUNT, and nothing with the chain empty (R30). -/
theorem chainExpiry_quiet {w : Line} {s : State} (h : s.ru.lock ≠ .hunt ∨ s.ru.chain = none) : chainExpiry w s = s := by
  refine (chainExpiry_spec w s).2 ?_
  rintro ⟨hunt, c, chain, _⟩
  rcases h with h | h
  · exact h hunt
  · simp [chain] at h

/-! ### What an opening leaves -/

/-- Two units that differ in the phase, the restart, and the label of the newest entry alone: its first IRL, PARTIAL_START and its mark
(R33). -/
def Labelled (u v : RepeatUnit) : Prop := ∃ phase accepted restart firstIrl markIrl partialStart,
  v = { u with phase := phase, accepted := accepted, restart := restart, newest := { u.newest with
    firstIrl := firstIrl, markIrl := markIrl, partialStart := partialStart } }

theorem restarted_labelled (u : RepeatUnit) (kind : RestartKind) (w : Line) (irregular : Bool) :
    Labelled (u.opened w irregular) (u.restarted kind w irregular) := ⟨_, _, _, _, _, _, rfl⟩

/-- The log after an opening: the closed entry joins it, and the oldest one leaves a log of 16 (R22). -/
theorem opened_older (u : RepeatUnit) (w : Line) (irregular : Bool) :
    let closed := { u.newest with length := some (w - u.newest.start).toNat, irregularEnd := irregular }
    (u.opened w irregular).older = if u.older.length + 1 < 16 then u.older ++ [closed] else u.older.tail ++ [closed] := by
  intro closed
  show (if (u.older ++ [closed]).length < 16 then u.older ++ [closed] else (u.older ++ [closed]).drop 1) = _
  rw [List.length_append, List.length_singleton]
  split
  · rfl
  next full =>
    rw [List.drop_one, List.tail_append_of_ne_nil]
    rintro empty
    simp [empty] at full

/-- The lock and the misses after an opening, by the table of R38. -/
theorem lockOpened_on {u : RepeatUnit} {r : RepeatSettings} (pending : u.pendingSettings = some r) (off : u.settings.tracking = false)
    (on : r.tracking = true) : u.lockOpened = .hunt ∧ u.missesOpened = 0 := by
  simp [RepeatUnit.lockOpened, RepeatUnit.missesOpened, pending, off, on]

theorem lockOpened_off {u : RepeatUnit} {r : RepeatSettings} (pending : u.pendingSettings = some r) (on : u.settings.tracking = true)
    (off : r.tracking = false) : u.lockOpened = .off ∧ u.missesOpened = u.misses := by
  simp [RepeatUnit.lockOpened, RepeatUnit.missesOpened, pending, off, on]

theorem lockOpened_kept {u : RepeatUnit} (same : ∀ r, u.pendingSettings = some r → r.tracking = u.settings.tracking) :
    u.lockOpened = u.lock ∧ u.missesOpened = u.misses := by
  unfold RepeatUnit.lockOpened RepeatUnit.missesOpened
  cases pending : u.pendingSettings with
  | none => exact ⟨rfl, rfl⟩
  | some r =>
    dsimp only
    rw [same r pending]
    cases u.settings.tracking <;> exact ⟨rfl, rfl⟩

/-- The chain after an opening and the expiry check: empty with a pending record or when expired, and as it was otherwise (R30, R38). -/
theorem opened_chain {w : Line} {s v : State} (settings : v.ru.settings = s.ru.pendingSettings.getD s.ru.settings)
    (lock : v.ru.lock = s.ru.lockOpened) (chain : v.ru.chain = if s.ru.pendingSettings.isSome then none else s.ru.chain) :
    (s.ru.pendingSettings.isSome = true ∨ ChainExpired w s → (chainExpiry w v).ru.chain = none)
    ∧ (s.ru.pendingSettings = none → ¬ChainExpired w s → (chainExpiry w v).ru.chain = s.ru.chain) := by
  cases pending : s.ru.pendingSettings with
  | some r =>
    rw [pending, Option.isSome_some, if_pos rfl] at chain
    rw [chainExpiry_quiet (.inr chain)]
    exact ⟨fun _ => chain, fun h => by cases h⟩
  | none =>
    have kept : s.ru.lockOpened = s.ru.lock := (lockOpened_kept fun r h => by simp [pending] at h).1
    have expired : ChainExpired w v ↔ ChainExpired w s := by
      simp only [ChainExpired, settings, lock, chain, kept, pending]
      rfl
    obtain ⟨empties, keeps⟩ := chainExpiry_spec w v
    constructor
    · rintro (h | h)
      · cases h
      · rw [empties (expired.mpr h)]; rfl
    · intro _ h
      rw [keeps (fun e => h (expired.mp e)), chain, pending]
      rfl

theorem chainExpiry_ru (w : Line) (s : State) : ∃ chain, (chainExpiry w s).ru = { s.ru with chain := chain } := by
  by_cases h : ChainExpired w s
  · exact ⟨none, by rw [(chainExpiry_spec w s).1 h]; rfl⟩
  · exact ⟨s.ru.chain, by rw [(chainExpiry_spec w s).2 h]⟩

theorem chainExpiry_ports (w : Line) (s : State) : (chainExpiry w s).ports = s.ports :=
  (chainExpiry_agree (A := [.ru]) w s (by decide)).ports (by decide)

/-- A repeat opened, whatever label its entry has, is what R21, R22 and R38 say once the chain has been judged. -/
theorem repeatOpened_of_labelled {w : Line} {irregular : Bool} {s v : State} (labelled : Labelled (s.ru.opened w irregular) v.ru)
    (raised : OpeningRaised s v) : RepeatOpened w irregular s (chainExpiry w v) := by
  obtain ⟨phase, accepted, restart, firstIrl, markIrl, partialStart, ru⟩ := labelled
  have chains := opened_chain (w := w) (s := s) (v := v) (by rw [ru]; rfl) (by rw [ru]; rfl) (by rw [ru]; rfl)
  obtain ⟨chain, judged⟩ := chainExpiry_ru w v
  rw [ru] at judged
  have lock : (chainExpiry w v).ru.lock = s.ru.lockOpened := by rw [judged]; rfl
  have misses : (chainExpiry w v).ru.misses = s.ru.missesOpened := by rw [judged]; rfl
  constructor
  case newest => rw [judged]; exact ⟨rfl, rfl, rfl, rfl, rfl, rfl⟩
  case older => rw [judged]; exact opened_older s.ru w irregular
  case stretch => rw [judged]; rfl
  case settings => rw [judged]; exact ⟨rfl, rfl⟩
  case trackingOn => rw [lock, misses]; exact fun r pending off on => lockOpened_on pending off on
  case trackingOff => rw [lock, misses]; exact fun r pending on off => lockOpened_off pending on off
  case trackingKept => rw [lock, misses]; exact lockOpened_kept
  case chainEmptied => exact chains.1
  case chainKept => exact chains.2
  case raised =>
    intro p
    rw [lock, State.port, chainExpiry_ports]
    exact raised p

/-! ### The due line -/

/-- The window of a repeat does not end at the line that opens it: that line has IRL 0, or M + 1 with the mark accepted (R29, R33). -/
theorem windowEnd_opened {w : Line} {s v : State} {irregular : Bool} (labelled : Labelled (s.ru.opened w irregular) v.ru)
    (first : v.ru.accepted = false → v.ru.newest.firstIrl = 0) : windowEnd w v = v := by
  refine windowEnd_quiet ?_
  rintro ⟨_, accepted, irl⟩
  have start : v.ru.newest.start = w := by
    obtain ⟨_, _, _, _, _, _, ru⟩ := labelled
    rw [ru]
    rfl
  rw [start, first accepted, BitVec.sub_self] at irl
  simp at irl

/-- The due line that opens a repeat ends with the chain expiry check (R19). -/
theorem repeatDueLine_opened {w : Line} {s : State} {irregular : Bool}
    (labelled : Labelled (s.ru.opened w irregular) (restartStep w (phaseAdvance w s)).ru)
    (first : (restartStep w (phaseAdvance w s)).ru.accepted = false → (restartStep w (phaseAdvance w s)).ru.newest.firstIrl = 0) :
    repeatDueLine w s = chainExpiry w (restartStep w (phaseAdvance w s)) := by
  unfold repeatDueLine
  rw [windowEnd_opened labelled first]

/-- The due line of a repeat that goes on: the window-end check and the chain expiry check, at the phase after the line (R19, R20). -/
theorem repeatDueLine_on {w : Line} {s : State} (restart : s.ru.restart = none) (on : s.ru.GoesOn) :
    repeatDueLine w s = chainExpiry w (windowEnd w (s.withRu { s.ru with phase := s.ru.phase + 256 })) := by
  unfold repeatDueLine
  rw [phaseAdvance_on on, restartStep_none (by exact restart)]

theorem goLock_ports_same {l : LockState} {s : State} (h : s.ru.lock = l) : (goLock l s).ports = s.ports := by
  rw [goLock, if_pos h]

theorem goLock_raisedUp {l : LockState} {s : State} (h : s.ru.lock ≠ l) : RaisedUp .lock s (goLock l s) := by
  rw [goLock, if_neg h]
  exact raiseUp_raisedUp .lock (s.withRu _)

/-- Everything that the window-end check and the chain expiry check do at a line of a repeat that goes on (R29, R30): the misses, the
lock and the chain, and LOCK raised exactly at a change of the lock. -/
structure LineJudged (w : Line) (s t : State) : Prop where
  ru : ∃ misses lock chain, t.ru = { s.ru with misses := misses, lock := lock, chain := chain }
  missed : WindowMissed w s → t.ru.misses = s.ru.misses + 1
    ∧ (s.ru.settings.kmiss ≤ s.ru.misses + 1 → t.ru.lock = .hunt ∧ t.ru.chain = none)
    ∧ (s.ru.misses + 1 < s.ru.settings.kmiss → t.ru.lock = .coast ∧ t.ru.chain = s.ru.chain)
  quiet : ¬WindowMissed w s → t.ru.misses = s.ru.misses ∧ t.ru.lock = s.ru.lock
    ∧ (ChainExpired w s → t.ru.chain = none) ∧ (¬ChainExpired w s → t.ru.chain = s.ru.chain)
  raised : t.ru.lock ≠ s.ru.lock → RaisedUp .lock s t
  silent : t.ru.lock = s.ru.lock → t.ports = s.ports

theorem lineJudged_lost {w : Line} {s : State} (h : WindowMissed w s) (last : s.ru.settings.kmiss ≤ s.ru.misses + 1) :
    LineJudged w s (chainExpiry w (windowEnd w s)) := by
  rw [windowEnd_missed h, if_pos last]
  set u := s.withRu { s.ru with misses := s.ru.misses + 1, chain := none }
  have ru : (goLock .hunt u).ru = { s.ru with misses := s.ru.misses + 1, chain := none, lock := .hunt } := goLock_ru _ _
  rw [chainExpiry_quiet (.inr (by rw [ru]))]
  constructor
  case ru => exact ⟨_, _, _, ru⟩
  case missed => rw [ru]; exact fun _ => ⟨rfl, fun _ => ⟨rfl, rfl⟩, fun more => absurd last (Nat.not_le.mpr more)⟩
  case quiet => exact fun no => absurd h no
  case raised => rw [ru]; exact fun differs => goLock_raisedUp (s := u) (Ne.symm differs)
  case silent => rw [ru]; exact fun same => goLock_ports_same (s := u) same.symm

theorem lineJudged_coasts {w : Line} {s : State} (h : WindowMissed w s) (more : s.ru.misses + 1 < s.ru.settings.kmiss) :
    LineJudged w s (chainExpiry w (windowEnd w s)) := by
  rw [windowEnd_missed h, if_neg (Nat.not_le.mpr more)]
  set u := s.withRu { s.ru with misses := s.ru.misses + 1 }
  have ru : (goLock .coast u).ru = { s.ru with misses := s.ru.misses + 1, lock := .coast } := goLock_ru _ _
  rw [chainExpiry_quiet (.inl (by rw [ru]; exact LockState.noConfusion))]
  constructor
  case ru => exact ⟨_, _, _, ru⟩
  case missed => rw [ru]; exact fun _ => ⟨rfl, fun last => absurd last (Nat.not_le.mpr more), fun _ => ⟨rfl, rfl⟩⟩
  case quiet => exact fun no => absurd h no
  case raised => rw [ru]; exact fun differs => goLock_raisedUp (s := u) (Ne.symm differs)
  case silent => rw [ru]; exact fun same => goLock_ports_same (s := u) same.symm

theorem lineJudged_quiet {w : Line} {s : State} (h : ¬WindowMissed w s) : LineJudged w s (chainExpiry w (windowEnd w s)) := by
  rw [windowEnd_quiet h]
  obtain ⟨chain, ru⟩ := chainExpiry_ru w s
  obtain ⟨empties, keeps⟩ := chainExpiry_spec w s
  constructor
  case ru => exact ⟨_, _, chain, ru⟩
  case missed => exact fun yes => absurd yes h
  case quiet =>
    refine fun _ => ⟨by rw [ru], by rw [ru], fun expired => ?_, fun stays => ?_⟩
    · rw [empties expired]; rfl
    · rw [keeps stays]
  case raised => exact fun differs => absurd (by rw [ru]) differs
  case silent => exact fun _ => chainExpiry_ports w s

theorem lineJudged (w : Line) (s : State) : LineJudged w s (chainExpiry w (windowEnd w s)) := by
  by_cases missed : WindowMissed w s
  · by_cases last : s.ru.settings.kmiss ≤ s.ru.misses + 1
    · exact lineJudged_lost missed last
    · exact lineJudged_coasts missed (Nat.not_le.mp last)
  · exact lineJudged_quiet missed

/-- Settles O24: the window-end check and the expiry check of a repeat that goes on, and the opening at its end. -/
theorem phaseAdvance_spec : Obligations.PhaseAdvance := by
  unfold Obligations.PhaseAdvance
  intro s w restart t
  refine ⟨fun on => ?_, fun past => ?_⟩
  · have judged := lineJudged w (s.withRu { s.ru with phase := s.ru.phase + 256 })
    rw [← repeatDueLine_on restart on] at judged
    obtain ⟨misses, lock, chain, ru⟩ := judged.ru
    refine ⟨?_, ?_, ?_, ?_, ?_, ⟨judged.missed, judged.quiet⟩, judged.raised, judged.silent⟩
    all_goals rw [ru]; rfl
  · have past : ¬s.ru.GoesOn := not_lt.mpr past
    obtain ⟨⟨phase, remainder, ru⟩, raised⟩ := phaseAdvance_opens (w := w) past
    have same : restartStep w (phaseAdvance w s) = phaseAdvance w s := restartStep_none (by rw [ru]; exact restart)
    have labelled : Labelled (s.ru.opened w false) (phaseAdvance w s).ru := ⟨_, _, _, _, _, _, ru⟩
    have due : t = chainExpiry w (phaseAdvance w s) := by
      have := repeatDueLine_opened (w := w) (s := s) (irregular := false) (by rw [same]; exact labelled) fun _ => by rw [same, ru]; rfl
      rwa [same] at this
    obtain ⟨chain, judged⟩ := chainExpiry_ru w (phaseAdvance w s)
    have opened := repeatOpened_of_labelled labelled raised
    rw [← due] at judged opened
    rw [ru] at judged
    refine ⟨?_, ?_, ?_, ?_, ?_, opened⟩
    · rw [judged]; exact remainder
    all_goals rw [judged]; rfl

/-- Everything that a due line with a pending restart comes to, once the restart was applied (R33, R34). -/
theorem repeatDueLine_restarted {w : Line} {s : State} {kind : RestartKind} {irregular : Bool}
    (ru : (restartStep w (phaseAdvance w s)).ru = s.ru.restarted kind w irregular)
    (raised : OpeningRaised s (restartStep w (phaseAdvance w s))) : let t := repeatDueLine w s
    (∃ chain, t.ru = { s.ru.restarted kind w irregular with chain := chain }) ∧ RepeatOpened w irregular s t := by
  have labelled : Labelled (s.ru.opened w irregular) (restartStep w (phaseAdvance w s)).ru := by
    rw [ru]; exact restarted_labelled _ _ _ _
  have due : repeatDueLine w s = chainExpiry w (restartStep w (phaseAdvance w s)) := by
    refine repeatDueLine_opened labelled ?_
    rw [ru]
    show (if 0 < restartIrl kind _ then true else _) = false → restartIrl kind _ = 0
    split
    · exact fun h => by cases h
    next zero => exact fun _ => Nat.eq_zero_of_not_pos zero
  intro t
  obtain ⟨chain, judged⟩ := chainExpiry_ru w (restartStep w (phaseAdvance w s))
  rw [← due, ru] at judged
  refine ⟨⟨chain, judged⟩, ?_⟩
  have opened := repeatOpened_of_labelled labelled raised
  rwa [← due] at opened

/-- Settles O25: either way the log has one new repeat, labelled by the restart. -/
theorem restartClosesEarly : Obligations.RestartClosesEarly := by
  unfold Obligations.RestartClosesEarly
  intro s w kind restart t r first opened
  have irl : restartIrl kind r = first := by
    cases kind with
    | requested => simp [restartIrl, first]
    | acquisition => simp [restartIrl, first]
  have applied : ∀ irregular, (restartStep w (phaseAdvance w s)).ru = s.ru.restarted kind w irregular →
      OpeningRaised s (restartStep w (phaseAdvance w s)) → opened irregular := by
    intro irregular ru raised
    obtain ⟨⟨chain, judged⟩, rest⟩ := repeatDueLine_restarted ru raised
    change t.ru = _ at judged
    show _ ∧ t.ru.phase = 256 * first ∧ _
    rw [judged, ← irl]
    refine ⟨rfl, rfl, ?_, rfl, rfl, rfl, rest⟩
    show (if 0 < restartIrl kind r then true else false) = _
    simp
  refine ⟨fun start on => ?_, fun past => ?_⟩
  · obtain ⟨ru, raised⟩ := restart_closes_early restart start on
    exact applied true ru raised
  · obtain ⟨ru, raised⟩ := restart_relabels (w := w) restart (not_lt.mpr past)
    exact applied false ru raised

end Sys2Proof.Machine
end

section
/-!
SUPPORT. Mark edges (R25 to R28): a candidate for the acquisition chain in HUNT, and a mark judged against its window in LOCKED or COAST;
the chain expiry check as a command (R30).
-/

namespace Sys2Proof.Machine

/-! ### Mark edges -/

/-- The chain length that a mark edge in HUNT gives (R26). -/
def State.candidateLength (s : State) : Nat :=
  match s.ru.chain with
  | none => 1
  | some c =>
    if (256 * lineDiff s.mu.wln c.last - s.ru.settings.length).natAbs ≤ 256 * s.ru.settings.wc then c.length + 1 else 1

theorem markCandidate_extends {s : State} (h : s.candidateLength < s.ru.settings.qacq) :
    markCandidate s = s.withRu { s.ru with chain := some { length := s.candidateLength, last := s.mu.wln } } :=
  if_neg (Nat.not_le.mpr h)

theorem markCandidate_acquires {s : State} (h : s.ru.settings.qacq ≤ s.candidateLength) :
    markCandidate s = goLock .locked (s.withRu { s.ru with restart := some .acquisition, misses := 0, chain := none }) := if_pos h

/-- A mark edge falls in the capture window of a repeat without an accepted mark (R28). -/
def InWindow (s : State) : Prop := (s.ru.settings.m : Int) - s.ru.settings.wc ≤ s.currentIrl
  ∧ s.currentIrl ≤ s.ru.settings.m + s.ru.settings.wc ∧ s.ru.accepted = false

/-- The stretch that a mark edge gives: its error clamped to the correction limit (R28). -/
def State.markStretch (s : State) : Int := clampStretch s.ru.settings.cmax ((s.currentIrl : Int) - s.ru.settings.m)

/-- The Repeat Unit with the mark accepted at the current IRL (R28), the lock apart. -/
def State.marked (s : State) : RepeatUnit :=
  { s.ru with
    stretch := s.markStretch, accepted := true, misses := 0
    newest := { s.ru.newest with markIrl := some s.currentIrl, stretch := s.markStretch } }

theorem markJudge_accepts {s : State} (h : InWindow s) : markJudge s = goLock .locked (s.withRu s.marked) := if_pos h

theorem markJudge_strays {s : State} (h : ¬InWindow s) : markJudge s = s.withRu { s.ru with strays := s.ru.strays + 1 } := if_neg h

theorem markTransition_idle {s : State} {edge : MarkDirection} (h : edge ≠ s.ru.settings.edge ∨ s.ru.lock = .off) :
    markTransition edge s = s := by
  unfold markTransition
  split
  next same =>
    rw [h.resolve_left (fun differs => differs same)]
  · rfl

theorem markTransition_hunt {s : State} (hunt : s.ru.lock = .hunt) : markTransition s.ru.settings.edge s = markCandidate s := by
  rw [markTransition, if_pos rfl, hunt]

theorem markTransition_locked {s : State} (h : s.ru.lock = .locked ∨ s.ru.lock = .coast) :
    markTransition s.ru.settings.edge s = markJudge s := by
  rw [markTransition, if_pos rfl]
  rcases h with h | h <;> rw [h]

/-- In a settled state an event that changes the Repeat Unit alone has nothing to settle. -/
theorem settle_withRu {s : State} (h : Settled s) (x : RepeatUnit) : settle (s.withRu x) = s.withRu x :=
  settle_settled (h.congr rfl rfl rfl)

/-- A change of the Repeat Unit with a change of the lock, at the end of an event. -/
theorem settle_goLock_agree (l : LockState) (s : State) (x : RepeatUnit) :
    State.Agree [.ru, .windows, .ports] s (settle (goLock l (s.withRu x))) :=
  ((agree_withRu s x (by decide)).trans (goLock_agree l _ (by decide) (by decide))).trans ((settle_agree _).mono (by decide))

theorem settle_goLock_raisedUp {l : LockState} {s : State} {x : RepeatUnit} (same : x.lock = s.ru.lock) (h : s.ru.lock ≠ l) :
    RaisedUp .lock s (settle (goLock l (s.withRu x))) := by
  intro p
  rw [settle_pendingSet]
  exact goLock_raisedUp (s := s.withRu x) (by rw [State.withRu_ru, same]; exact h) p

/-- Settles O26: a candidate that extends the chain, and one that completes the acquisition. -/
theorem markEdgeHunt : Obligations.MarkEdgeHunt := by
  unfold Obligations.MarkEdgeHunt
  intro s edge settled
  refine ⟨fun idle => ?_, ?_⟩
  · show Host.Outcome.next (settle (markTransition edge s)) = _
    rw [markTransition_idle idle, settle_settled settled]
  · rintro rfl hunt length
    have run : exec (.markEdge s.ru.settings.edge) s = .next (settle (markCandidate s)) := by
      rw [← markTransition_hunt hunt]; rfl
    refine ⟨fun more => ?_, fun enough => ⟨_, run, ?_⟩⟩
    · rw [run, markCandidate_extends more]
      exact congrArg _ (settle_withRu settled _)
    · rw [markCandidate_acquires enough]
      refine ⟨?_, settle_goLock_raisedUp rfl (by rw [hunt]; decide), settle_goLock_agree _ _ _⟩
      rw [settle_ru, goLock_ru]
      rfl

/-- Settles O27: a mark in its window, which goes to LOCKED, and a stray. -/
theorem markEdgeWindow : Obligations.MarkEdgeWindow := by
  unfold Obligations.MarkEdgeWindow
  intro s settled lock r i e
  have run : exec (.markEdge r.edge) s = .next (settle (markJudge s)) := by
    rw [← markTransition_locked lock]; rfl
  refine ⟨fun early late fresh => ?_, fun stray => ?_⟩
  · have inside : InWindow s := ⟨early, late, fresh⟩
    refine ⟨_, run, ?_⟩
    rw [markJudge_accepts inside]
    refine ⟨?_, fun coast => settle_goLock_raisedUp rfl (by rw [coast]; decide), fun locked => ?_, settle_goLock_agree _ _ _⟩
    · rw [settle_ru, goLock_ru]
      rfl
    · rw [goLock, if_pos (by exact locked), settle_withRu settled]
      rfl
  · have outside : ¬InWindow s := by
      rintro ⟨early, late, fresh⟩
      rcases stray with before | after | accepted
      · exact absurd early (not_le.mpr before)
      · exact absurd late (not_le.mpr after)
      · simp [fresh] at accepted
    rw [run, markJudge_strays outside]
    exact congrArg _ (settle_withRu settled _)

/-! ### The chain expiry check as a command -/

/-- Settles O28. -/
theorem chainExpiryTaken : Obligations.ChainExpiryTaken := by
  unfold Obligations.ChainExpiryTaken
  intro s
  obtain ⟨empties, keeps⟩ := chainExpiry_spec s.mu.wln s
  have run : exec .chainExpiry s = .next (chainExpiry s.mu.wln s) := rfl
  refine ⟨fun c hunt chain => ?_, fun idle => ?_⟩
  · rw [run]
    split
    next beyond => rw [empties ⟨hunt, c, chain, beyond⟩]
    next within =>
      rw [keeps]
      rintro ⟨_, d, same, beyond⟩
      rw [chain] at same
      cases same
      exact within beyond
  · rw [run, chainExpiry_quiet idle]

end Sys2Proof.Machine
end

section
/-!
SUPPORT. The numbering under every command (R22 to R24, R36): which commands reach it and by what, for any property that the operations
on the numbering keep.
-/

namespace Sys2Proof.Machine

/-! ### The operations on the numbering -/

/-- Two units with the same numbering: the lock, the chain, the misses, the restart and the count of strays alone may differ. -/
def SameNumbering (u v : RepeatUnit) : Prop := ∃ lock chain misses restart strays,
  v = { u with lock := lock, chain := chain, misses := misses, restart := restart, strays := strays }

theorem SameNumbering.of_eq {u v : RepeatUnit} (h : v = u) : SameNumbering u v := ⟨u.lock, u.chain, u.misses, u.restart, u.strays, h⟩

theorem goLock_sameNumbering (l : LockState) {u : RepeatUnit} {s : State} (h : SameNumbering u s.ru) : SameNumbering u (goLock l s).ru := by
  obtain ⟨lock, chain, misses, restart, strays, e⟩ := h
  exact ⟨l, chain, misses, restart, strays, by rw [goLock_ru, e]⟩

/-- The window-end check and the chain expiry check leave the numbering (R29, R30). -/
theorem lineJudged_sameNumbering (w : Line) (s : State) : SameNumbering s.ru (chainExpiry w (windowEnd w s)).ru := by
  obtain ⟨misses, lock, chain, ru⟩ := (lineJudged w s).ru
  exact ⟨lock, chain, misses, s.ru.restart, s.ru.strays, ru⟩

theorem markCandidate_sameNumbering (s : State) : SameNumbering s.ru (markCandidate s).ru := by
  by_cases h : s.candidateLength < s.ru.settings.qacq
  · rw [markCandidate_extends h]
    exact ⟨_, _, _, _, _, rfl⟩
  · rw [markCandidate_acquires (Nat.not_lt.mp h)]
    exact goLock_sameNumbering _ ⟨_, _, _, _, _, rfl⟩

theorem overrunIndication_sameNumbering (s : State) : SameNumbering s.ru (overrunIndication s).ru := by
  rw [overrunIndication_ru]
  split
  · exact .of_eq rfl
  · exact ⟨_, _, _, _, _, rfl⟩

/-- The state in which the WLN has gone on by one and the Repeat Unit has not yet taken the line (R7, R19). -/
def State.lineCounted (s : State) : State := s.withMu { s.mu with wln := s.mu.wln + 1 }

/-- The state after the phase advance and the restart step of the next due line (R20, R33, R34). -/
def State.lineNumbered (s : State) : State := restartStep (s.mu.wln + 1) (phaseAdvance (s.mu.wln + 1) s.lineCounted)

theorem lineNumbered_wln (s : State) : s.lineNumbered.mu.wln = s.mu.wln + 1 := by
  have advanced := phaseAdvance_agree (A := [.ru, .ports]) (s.mu.wln + 1) s.lineCounted (by decide) (by decide)
  have restarted := restartStep_agree (A := [.ru, .ports]) (s.mu.wln + 1) (phaseAdvance (s.mu.wln + 1) s.lineCounted) (by decide)
    (by decide)
  rw [State.lineNumbered, restarted.mu (by decide), advanced.mu (by decide)]
  rfl

/-- The Repeat Unit after a due line has the numbering that the phase advance and the restart step give (R19). -/
theorem repeatDueLine_sameNumbering (s : State) : SameNumbering s.lineNumbered.ru (repeatDueLine (s.mu.wln + 1) s).ru := by
  rw [repeatDueLine_ru_congr (s := s) (t := s.lineCounted) (s.mu.wln + 1) rfl]
  exact lineJudged_sameNumbering (s.mu.wln + 1) s.lineNumbered

/-- A property of the numbering that both resets have and every operation on the numbering keeps. -/
structure NumberingKept (P : State → Prop) : Prop where
  reset : ∀ t, t.ru = RepeatUnit.initial → t.mu.wln = 0 → P t
  same : ∀ s t, P s → SameNumbering s.ru t.ru → t.mu.wln = s.mu.wln → P t
  stored : ∀ s r, P s → r.inRange = true → P (s.withRu { s.ru with pendingSettings := some r })
  marked : ∀ s, P s → InWindow s → P (s.withRu s.marked)
  due : ∀ s, P s → P s.lineNumbered

/-! ### The commands -/

theorem setMotion_numbering (r : MotionSettings) (s : State) : (setMotion r s).1.ru = s.ru ∧ (setMotion r s).1.mu.wln = s.mu.wln := by
  unfold setMotion
  split <;> exact ⟨rfl, rfl⟩

namespace NumberingKept

variable {P : State → Prop}

theorem congr (k : NumberingKept P) {s t : State} (h : P s) (ru : t.ru = s.ru) (wln : t.mu.wln = s.mu.wln) : P t :=
  k.same s t h (.of_eq ru) wln

theorem settle (k : NumberingKept P) {s : State} (h : P s) : P (settle s) := k.congr h (settle_ru s) (by rw [settle_mu])

theorem goLock (k : NumberingKept P) (l : LockState) {s : State} (h : P s) : P (goLock l s) := by
  have agree := goLock_agree (A := [.ru, .ports]) l s (by decide) (by decide)
  exact k.same s _ h (goLock_sameNumbering l (.of_eq rfl)) (by rw [agree.mu (by decide)])

theorem dueLine (k : NumberingKept P) {s : State} (h : P s) : P (dueLine s) := by
  have ru : (Machine.dueLine s).ru = (repeatDueLine (s.mu.wln + 1) s).ru := by
    rw [dueLine_eq, ← (afterReceivers_spec s).ru, (gateDueLine_after _ _).1.ru (by decide), (afterGate_agree _).ru (by decide)]
  refine k.same s.lineNumbered _ (k.due s h) ?_ (by rw [dueLine_mu, lineNumbered_wln])
  rw [ru]
  exact repeatDueLine_sameNumbering s

theorem overrunIndication (k : NumberingKept P) {s : State} (h : P s) : P (overrunIndication s) :=
  k.same s _ h (overrunIndication_sameNumbering s) (by rw [overrunIndication_mu])

theorem markTransition (k : NumberingKept P) (edge : MarkDirection) {s : State} (h : P s) : P (markTransition edge s) := by
  have agree := markTransition_agree (A := [.ru, .ports]) edge s (by decide) (by decide)
  have wln : (Machine.markTransition edge s).mu.wln = s.mu.wln := by rw [agree.mu (by decide)]
  by_cases idle : edge ≠ s.ru.settings.edge ∨ s.ru.lock = .off
  · rw [markTransition_idle idle]
    exact h
  obtain ⟨same, active⟩ := not_or.mp idle
  obtain rfl := not_not.mp same
  cases lock : s.ru.lock with
  | off => exact absurd lock active
  | hunt =>
    refine k.same s _ h ?_ wln
    rw [markTransition_hunt lock]
    exact markCandidate_sameNumbering s
  | locked | coast =>
    rw [markTransition_locked (by rw [lock]; decide)]
    by_cases inside : InWindow s
    · rw [markJudge_accepts inside]
      exact k.goLock _ (k.marked s h inside)
    · rw [markJudge_strays inside]
      exact k.same s _ h ⟨_, _, _, _, _, rfl⟩ rfl

theorem forwardCount (k : NumberingKept P) {s : State} (h : P s) : P (forwardCount s) := by
  by_cases below : s.mu.acc + s.mu.settings.n < s.mu.settings.d
  · rw [forwardCount_below below]
    exact k.congr h rfl rfl
  · rw [forwardCount_step (Nat.not_lt.mp below)]
    set v := s.withMu { s.mu with acc := s.mu.acc + s.mu.settings.n - s.mu.settings.d }
    have stepped : P v := k.congr h rfl rfl
    rcases Nat.eq_zero_or_pos v.mu.owed with due | owed
    · rw [lineStep_due due]
      exact k.dueLine stepped
    · rw [lineStep_owed owed]
      exact k.congr stepped rfl rfl

theorem reverseCount (k : NumberingKept P) {s : State} (h : P s) : P (reverseCount s) := by
  by_cases enough : s.mu.settings.n ≤ s.mu.acc
  · rw [reverseCount_enough enough]
    exact k.congr h rfl rfl
  · rw [reverseCount_step (Nat.not_le.mp enough)]
    set v := s.withMu { s.mu with acc := s.mu.acc + s.mu.settings.d - s.mu.settings.n }
    by_cases room : v.mu.owed < 4095
    · rw [reverseStep_owed room]
      exact k.congr h rfl rfl
    · rw [reverseStep_overrun (Nat.not_lt.mp room)]
      exact k.overrunIndication (k.congr h rfl rfl)

theorem encoderChange (k : NumberingKept P) (inputs : EncInputs) {s : State} (h : P s) : P (encoderChange inputs s) := by
  have moved : P (s.withMu { s.mu with reference := inputs }) := k.congr h rfl rfl
  unfold Machine.encoderChange
  dsimp only
  split
  · exact moved
  · split
    · exact k.congr h rfl rfl
    · split
      · exact k.forwardCount moved
      · exact k.reverseCount moved

/-- The taking of a claim request keeps the numbering if the action on its fields does. -/
theorem takeRequest (k : NumberingKept P) {α : Type} {s t : State} {p : Port} {kind : Option RequestKind}
    {read : List Byte → Option α} {act : α → State → State × Answer} (keeps : ∀ x s, P s → P (act x s).1) (h : P s)
    (e : takeRequest p kind (asHolder p (withFields read act)) s = .next t) : P t := by
  have acted : ∀ f s, P s → P (asHolder p (withFields read act) f s).1 := by
    intro f s h
    unfold asHolder withFields
    split
    · split
      · exact h
      · exact keeps _ _ h
    · exact h
  unfold Machine.takeRequest at e
  split at e
  · cases e; exact h
  · split at e
    next f rest _ _ =>
      cases e
      exact k.settle (k.congr (acted f (s.setPort p { s.port p with requests := rest }) (k.congr h rfl rfl)) rfl rfl)
    · cases e; exact h

theorem repeatRestart (k : NumberingKept P) (x : Unit) {s : State} (h : P s) : P (repeatRestart x s).1 := by
  refine k.goLock _ ?_
  exact k.same s _ h ⟨_, _, _, _, _, rfl⟩ rfl

theorem setRepeat (k : NumberingKept P) (r : RepeatSettings) {s : State} (h : P s) : P (setRepeat r s).1 := by
  unfold Machine.setRepeat
  split
  next inRange => exact k.stored s r h inRange
  · exact h

theorem execFrameCompletion (k : NumberingKept P) {s t : State} {p : Port} (h : P s) (e : execFrameCompletion p s = .next t) : P t := by
  have sent : P (Machine.settle (s.setPort p { s.port p with outbound := none })) := k.settle (k.congr h rfl rfl)
  unfold Machine.execFrameCompletion at e
  split at e
  · split at e
    · cases e; exact k.reset _ rfl rfl
    · cases e; exact sent
  · cases e; exact sent
  · cases e; exact h
  · cases e; exact h

theorem execSteeringLinkLoss (k : NumberingKept P) {s t : State} {p : Port} (h : P s) (e : execSteeringLinkLoss p s = .next t) :
    P t := by
  have cut := (cutLink_agree p s).trans (failPort_agree p true _)
  set failed := failPort p true (cutLink p s)
  have failedOk : P failed := k.congr h (cut.ru (by decide)) (by rw [cut.mu (by decide)])
  have dropped := dropClaim_agree p (failed.setPort p (downPort (failed.port p)))
  have lost : P (Machine.settle (dropClaim p (failed.setPort p (downPort (failed.port p))))) :=
    k.settle (k.congr failedOk (dropped.ru (by decide)) (by rw [dropped.mu (by decide)]; rfl))
  unfold Machine.execSteeringLinkLoss at e
  split at e
  · cases e; exact h
  all_goals
    split at e
    · cases e; exact k.reset _ rfl rfl
    · cases e; exact lost

theorem execStopTimerExpiry (k : NumberingKept P) {s t : State} (h : P s) (e : execStopTimerExpiry s = .next t) : P t := by
  unfold Machine.execStopTimerExpiry at e
  split at e
  · cases e; exact h
  next due _ =>
    cases e
    set stopped := (s.clockAt due).withMu { s.mu with motion := .stopped, stopTimer := none }
    have agree := stopSeal_agree stopped
    have stoppedOk : P (stopSeal stopped) := k.congr h (agree.ru (by decide)) (by rw [agree.mu (by decide)]; rfl)
    exact k.settle (k.congr stoppedOk rfl rfl)

/-- Every command keeps the property: one whose frame spares the Repeat Unit and the Motion Unit leaves the numbering as it is. -/
theorem exec (k : NumberingKept P) {c : Instr} {s t : State} (h : P s) (e : exec c s = .next t) : P t := by
  by_cases spared : Part.ru ∉ touched c ∧ Part.mu ∉ touched c
  · obtain ⟨u, hu, agree⟩ := commandFrames c s
    rw [hu] at e
    cases e
    exact k.congr h (agree.ru spared.1) (by rw [agree.mu spared.2])
  · cases c with
    | powerOn inputs => cases e; exact k.reset _ rfl rfl
    | encoderCount inputs => cases e; exact k.settle (k.encoderChange inputs h)
    | gateReopen =>
      change execGateReopen s = _ at e
      unfold execGateReopen at e
      split at e
      · cases e; exact h
      · cases e; exact k.congr h rfl rfl
    | stopTimerExpiry => exact k.execStopTimerExpiry h e
    | speedGateEnd => cases e; exact k.congr h rfl rfl
    | setMotion p =>
      refine k.takeRequest (fun r s h => ?_) h e
      obtain ⟨ru, wln⟩ := setMotion_numbering r s
      exact k.congr h ru wln
    | chainExpiry =>
      cases e
      obtain ⟨chain, ru⟩ := chainExpiry_ru s.mu.wln s
      exact k.same s _ h ⟨_, chain, _, _, _, ru⟩ (by rw [(chainExpiry_agree (A := [.ru]) _ s (by decide)).mu (by decide)])
    | markEdge edge => cases e; exact k.settle (k.markTransition edge h)
    | repeatRestart p => exact k.takeRequest (fun x _ h => k.repeatRestart x h) h e
    | setRepeat p => exact k.takeRequest (fun r _ h => k.setRepeat r h) h e
    | frameCompletion p => exact k.execFrameCompletion h e
    | steeringLinkLoss p => exact k.execSteeringLinkLoss h e
    | _ => exact absurd (by simp [touched, lineParts, deliveryParts]) spared

theorem step (k : NumberingKept P) {s t : State} (h : P s) (e : step s = .next t) : P t := by
  unfold Machine.step at e
  split at e
  · cases e; exact k.congr h rfl rfl
  next c rest _ => exact k.exec (k.congr (t := s.withPending rest) h rfl rfl) e

end NumberingKept

end Sys2Proof.Machine
end

section
/-!
SUPPORT. The order of the repeat log (R22) and the phase with the stretch (R24) under every operation on the numbering.
-/

namespace Sys2Proof.Machine

/-! ### The chain of a log -/

/-- An entry of a log is closed and ends where the next one starts, with the next repeat number (R22). -/
def LogEntry.Precedes (e next : LogEntry) : Prop :=
  (∃ n, e.length = some n ∧ next.start = e.start + BitVec.ofNat 32 n) ∧ next.rn = e.rn + 1

/-- A log is chained exactly where its oldest entry precedes the next one and the rest is chained. -/
theorem logChained_cons (e : LogEntry) (es : List LogEntry) (last : LogEntry) :
    logChained (e :: es) last ↔ e.Precedes (es.headD last) ∧ logChained es last := by
  cases es with
  | nil => exact (and_iff_left trivial).symm
  | cons f es => exact Iff.rfl

/-- Of its newest entry a log's chain sees the start and the repeat number alone. -/
theorem logChained_congr {es : List LogEntry} {x y : LogEntry} (start : y.start = x.start) (rn : y.rn = x.rn)
    (h : logChained es x) : logChained es y := by
  induction es with
  | nil => trivial
  | cons e es ih =>
    rw [logChained_cons] at h ⊢
    obtain ⟨first, rest⟩ := h
    refine ⟨?_, ih rest⟩
    cases es with
    | nil => simpa [LogEntry.Precedes, start, rn] using first
    | cons f es => exact first

/-- A closed entry joins the log before the entry that follows it. -/
theorem logChained_append {es : List LogEntry} {x y : LogEntry} (h : logChained es x) (next : x.Precedes y) :
    logChained (es ++ [x]) y := by
  induction es with
  | nil => exact next
  | cons e es ih =>
    rw [List.cons_append]
    rw [logChained_cons] at h ⊢
    obtain ⟨first, rest⟩ := h
    refine ⟨?_, ih rest⟩
    cases es with
    | nil => exact first
    | cons f es => exact first

theorem logChained_tail {es : List LogEntry} {x : LogEntry} (h : logChained es x) : logChained es.tail x := by
  cases es with
  | nil => trivial
  | cons e es => exact ((logChained_cons e es x).mp h).2

/-! ### Every step keeps the log -/

theorem LogOk.congr {s t : State} (h : LogOk s) (older : t.ru.older = s.ru.older) (rn : t.ru.newest.rn = s.ru.newest.rn)
    (start : t.ru.newest.start = s.ru.newest.start) (length : t.ru.newest.length = s.ru.newest.length) : LogOk t where
  size := by simpa [RepeatUnit.entries, older] using h.size
  newestOpen := by rw [length]; exact h.newestOpen
  chained := by rw [older]; exact logChained_congr start rn h.chained

/-- A state whose Repeat Unit has another label or phase keeps the log's order. -/
theorem LogOk.labelled {s t : State} (h : LogOk s) (labelled : Labelled s.ru t.ru) : LogOk t := by
  obtain ⟨_, _, _, _, _, _, ru⟩ := labelled
  exact h.congr (by rw [ru]) (by rw [ru]) (by rw [ru]) (by rw [ru])

/-- An opening closes the newest entry at the due line, where the new one starts, and leaves at most 16 entries (R21, R22). -/
theorem LogOk.opened {s t : State} {w : Line} {irregular : Bool} (h : LogOk s) (ru : t.ru = s.ru.opened w irregular) : LogOk t := by
  obtain ⟨size, newestOpen, chained⟩ := h
  set closed := { s.ru.newest with length := some (w - s.ru.newest.start).toNat, irregularEnd := irregular } with hclosed
  have older := opened_older s.ru w irregular
  rw [← ru, ← hclosed] at older
  have length : s.ru.older.length + 1 ≤ 16 := by simpa [RepeatUnit.entries, Config.logCapacity] using size
  have precedes : closed.Precedes t.ru.newest := by
    rw [ru]
    refine ⟨⟨_, rfl, ?_⟩, rfl⟩
    show w = s.ru.newest.start + BitVec.ofNat 32 (w - s.ru.newest.start).toNat
    rw [BitVec.ofNat_toNat, BitVec.setWidth_eq, BitVec.add_comm, BitVec.sub_add_cancel]
  have chain : logChained s.ru.older closed := logChained_congr (x := s.ru.newest) rfl rfl chained
  refine ⟨?_, by rw [ru]; rfl, ?_⟩
  · rw [RepeatUnit.entries, List.length_append, older]
    show _ ≤ 16
    split <;> simp <;> omega
  · rw [older]
    split
    · exact logChained_append chain precedes
    · exact logChained_append (logChained_tail chain) precedes

theorem LogOk.lineNumbered {s : State} (h : LogOk s) : LogOk s.lineNumbered := by
  set w := s.mu.wln + 1
  have counted : LogOk s.lineCounted := h.congr rfl rfl rfl rfl
  have advanced : LogOk (phaseAdvance w s.lineCounted) := by
    by_cases on : s.lineCounted.ru.GoesOn
    · rw [phaseAdvance_on on]
      exact counted.congr rfl rfl rfl rfl
    · obtain ⟨⟨phase, _, ru⟩, _⟩ := phaseAdvance_opens (w := w) on
      have opened : LogOk (s.lineCounted.withRu (s.lineCounted.ru.opened w false)) := counted.opened rfl
      exact opened.labelled ⟨phase, _, _, _, _, _, ru⟩
  set v := phaseAdvance w s.lineCounted
  show LogOk (restartStep w v)
  cases restart : v.ru.restart with
  | none =>
    rw [restartStep_none restart]
    exact advanced
  | some kind =>
    by_cases start : v.ru.newest.start = w
    · rw [restartStep_relabels restart start]
      exact advanced.congr rfl rfl rfl rfl
    · rw [restartStep_closes restart start]
      have opened : LogOk (v.withRu (v.ru.opened w true)) := advanced.opened rfl
      refine opened.labelled ?_
      rw [State.withRu_ru, openRepeat_some_ru]
      exact restarted_labelled _ _ _ _

theorem logOk_kept : NumberingKept LogOk where
  reset := fun t ru _ => logOk_reset.congr (by rw [ru]; rfl) (by rw [ru]; rfl) (by rw [ru]; rfl) (by rw [ru]; rfl)
  same := fun s t h same _ => by
    obtain ⟨_, _, _, _, _, ru⟩ := same
    exact h.congr (by rw [ru]) (by rw [ru]) (by rw [ru]) (by rw [ru])
  stored := fun s r h _ => h.congr rfl rfl rfl rfl
  marked := fun s h _ => h.congr rfl rfl rfl rfl
  due := fun s h => h.lineNumbered

/-! ### Every step keeps the phase and the stretch -/

/-- The settings that SET_REPEAT admits leave room after the capture window for the correction limit (R36). -/
theorem RepeatSettings.inRange_room {r : RepeatSettings} (h : r.inRange = true) :
    256 * (r.m + r.wc + r.cmax + 2) ≤ r.length ∧ 131072 ≤ r.length ∧ r.length ≤ 51200000 ∧ r.cmax ≤ 255 := by
  simp only [RepeatSettings.inRange, decide_eq_true_eq] at h
  omega

theorem opened_settings {s : State} (h : RepeatOk s) : (s.ru.pendingSettings.getD s.ru.settings).inRange = true := by
  cases pending : s.ru.pendingSettings with
  | none => exact h.settings
  | some r => exact h.pending r pending

/-- A clamped error is within the correction limit (R28). -/
theorem clampStretch_bounds (cmax : Nat) (e : Int) : -(cmax : Int) ≤ clampStretch cmax e ∧ clampStretch cmax e ≤ cmax := by
  unfold clampStretch
  omega

theorem RepeatOk.same {s t : State} (h : RepeatOk s) (same : SameNumbering s.ru t.ru) (wln : t.mu.wln = s.mu.wln) : RepeatOk t := by
  obtain ⟨_, _, _, _, _, ru⟩ := same
  obtain ⟨settings, pending, phase, irl, stretch, unmarked, mark, recorded⟩ := h
  have current : t.currentIrl = s.currentIrl := by simp only [State.currentIrl, ru, wln]
  constructor
  case irl => rw [current, ru]; exact irl
  all_goals rw [ru]; assumption

theorem RepeatOk.stored {s : State} (h : RepeatOk s) {r : RepeatSettings} (inRange : r.inRange = true) :
    RepeatOk (s.withRu { s.ru with pendingSettings := some r }) where
  settings := h.settings
  pending := fun _ e => by cases e; exact inRange
  phase := h.phase
  irl := h.irl
  stretch := h.stretch
  unmarked := h.unmarked
  mark := h.mark
  recorded := h.recorded

/-- An accepted mark leaves the phase below the end of the repeat: the window and the correction limit lie before it (R28, R36). -/
theorem RepeatOk.marked {s : State} (h : RepeatOk s) (inside : InWindow s) : RepeatOk (s.withRu s.marked) := by
  obtain ⟨room, _, _, _⟩ := RepeatSettings.inRange_room h.settings
  obtain ⟨low, high⟩ := clampStretch_bounds s.ru.settings.cmax ((s.currentIrl : Int) - s.ru.settings.m)
  obtain ⟨_, late, _⟩ := inside
  have irl := h.irl
  refine ⟨h.settings, h.pending, ?_, irl, ?_, fun e => absurd e Bool.noConfusion, rfl, rfl⟩
  · show (s.ru.phase : Int) < s.ru.settings.length + 256 * clampStretch _ _
    omega
  · show (clampStretch _ _).natAbs ≤ s.ru.settings.cmax
    omega

/-- A repeat that goes on is nowhere near 2^32 lines long, so the next line's distance from its start is one more (R23, R36). -/
theorem RepeatOk.next_distance {s : State} (h : RepeatOk s) :
    (s.mu.wln + 1 - s.ru.newest.start).toNat = (s.mu.wln - s.ru.newest.start).toNat + 1 := by
  obtain ⟨_, _, most, limit⟩ := RepeatSettings.inRange_room h.settings
  have irl : s.ru.phase / 256 = s.ru.newest.firstIrl + (s.mu.wln - s.ru.newest.start).toNat := h.irl
  have phase := h.phase
  have stretch := h.stretch
  have small : (s.mu.wln - s.ru.newest.start).toNat < 2 ^ 32 - 1 := by omega
  bv_omega

theorem RepeatOk.goesOn {s t : State} (h : RepeatOk s) (on : s.ru.GoesOn)
    (ru : t.ru = { s.ru with phase := s.ru.phase + 256 }) (wln : t.mu.wln = s.mu.wln + 1) : RepeatOk t := by
  have irl : s.ru.phase / 256 = s.ru.newest.firstIrl + (s.mu.wln - s.ru.newest.start).toNat := h.irl
  have next := h.next_distance
  obtain ⟨settings, pending, _, _, stretch, unmarked, mark, recorded⟩ := h
  constructor
  case phase => rw [ru]; exact_mod_cast on
  case irl =>
    rw [State.currentIrl, LogEntry.irlOf, ru, wln]
    show (s.ru.phase + 256) / 256 = s.ru.newest.firstIrl + (s.mu.wln + 1 - s.ru.newest.start).toNat
    omega
  all_goals rw [ru]; assumption

/-- A repeat that starts at the present line without a stretch keeps the numbering in step, whatever its label, where the phase is that
of its first IRL and lies before its end, and the mark is recorded where it is accepted (R21, R33). -/
theorem repeatOk_of_labelled {s t : State} {w : Line} {irregular : Bool} (h : RepeatOk s)
    (labelled : Labelled (s.ru.opened w irregular) t.ru) (wln : t.mu.wln = w) (phase : t.ru.phase < t.ru.settings.length)
    (first : t.ru.phase / 256 = t.ru.newest.firstIrl) (mark : t.ru.newest.markIrl.isSome = t.ru.accepted) : RepeatOk t := by
  have settings := opened_settings h
  obtain ⟨_, _, _, _, _, _, ru⟩ := labelled
  have stretch : t.ru.stretch = 0 := by rw [ru]; rfl
  constructor
  case settings => rw [ru]; exact settings
  case pending => rw [ru]; exact fun _ e => by cases e
  case phase => rw [stretch]; omega
  case irl =>
    have start : t.ru.newest.start = w := by rw [ru]; rfl
    rw [State.currentIrl, LogEntry.irlOf, wln, start, BitVec.sub_self, first]
    rfl
  case stretch => rw [stretch]; exact Nat.zero_le _
  case unmarked => exact fun _ => stretch
  case mark => exact mark
  case recorded => rw [ru]; rfl

/-- A restart's first IRL, if it is not 0, is that after the mark offset, and its line lies in the repeat (R32, R36). -/
theorem restartIrl_room {r : RepeatSettings} (kind : RestartKind) (h : r.inRange = true) : 256 * restartIrl kind r < r.length := by
  obtain ⟨room, least, _, _⟩ := RepeatSettings.inRange_room h
  have first : restartIrl kind r = 0 ∨ restartIrl kind r = r.m + 1 := by
    cases kind with
    | requested => exact .inl rfl
    | acquisition =>
      unfold restartIrl
      dsimp only
      split
      · exact .inr rfl
      · exact .inl rfl
  omega

theorem RepeatOk.restarted {s t : State} {kind : RestartKind} {w : Line} {irregular : Bool} (h : RepeatOk s)
    (ru : t.ru = s.ru.restarted kind w irregular) (wln : t.mu.wln = w) : RepeatOk t := by
  refine repeatOk_of_labelled h (by rw [ru]; exact restarted_labelled _ _ _ _) wln ?_ ?_ ?_
  all_goals rw [ru]
  · exact restartIrl_room kind (opened_settings h)
  · exact Nat.mul_div_cancel_left _ (by decide)
  · show Option.isSome (if 0 < _ then some _ else none) = if 0 < _ then true else false
    split <;> rfl

theorem RepeatOk.opens {s t : State} {w : Line} {phase : Nat} (h : RepeatOk s)
    (remainder : (phase : Int) = s.ru.phase + 256 - (s.ru.settings.length + 256 * s.ru.stretch))
    (ru : t.ru = { s.ru.opened w false with phase := phase }) (wln : t.mu.wln = w) : RepeatOk t := by
  have below : phase < 256 := by
    have := h.phase
    omega
  refine repeatOk_of_labelled h ⟨phase, _, _, _, _, _, ru⟩ wln ?_ ?_ ?_
  all_goals rw [ru]
  · obtain ⟨_, least, _, _⟩ := RepeatSettings.inRange_room (opened_settings h)
    show phase < (s.ru.pendingSettings.getD s.ru.settings).length
    omega
  · exact Nat.div_eq_of_lt below
  · rfl

theorem RepeatOk.lineNumbered {s : State} (h : RepeatOk s) : RepeatOk s.lineNumbered := by
  have wln := lineNumbered_wln s
  have start : s.ru.newest.start ≠ s.mu.wln + 1 := by
    intro e
    have := h.next_distance
    rw [e, BitVec.sub_self] at this
    simp at this
  by_cases on : s.ru.GoesOn
  · cases restart : s.ru.restart with
    | none =>
      refine h.goesOn on ?_ wln
      rw [State.lineNumbered, phaseAdvance_on (by exact on), restartStep_none (by exact restart)]
      rfl
    | some kind => exact h.restarted (restart_closes_early (s := s.lineCounted) restart start on).1 wln
  · cases restart : s.ru.restart with
    | none =>
      obtain ⟨⟨phase, remainder, ru⟩, _⟩ := phaseAdvance_opens (w := s.mu.wln + 1) (s := s.lineCounted) on
      refine h.opens remainder ?_ wln
      rw [State.lineNumbered, restartStep_none (by rw [ru]; exact restart)]
      exact ru
    | some kind => exact h.restarted (restart_relabels (s := s.lineCounted) restart on).1 wln

theorem repeatOk_kept : NumberingKept RepeatOk where
  reset := fun _ ru wln => repeatOk_reset.same (.of_eq ru) wln
  same := fun _ _ h same wln => h.same same wln
  stored := fun _ _ h inRange => h.stored inRange
  marked := fun _ h inside => h.marked inside
  due := fun _ h => h.lineNumbered

/-- Settles O7: the log's order and the phase are properties that every operation on the numbering keeps. -/
theorem stepKeepsLog : Obligations.StepKeepsLog := by
  unfold Obligations.StepKeepsLog
  exact fun _ _ e => ⟨fun h => logOk_kept.step h e, fun h => repeatOk_kept.step h e⟩

end Sys2Proof.Machine
end

section
/-!
SUPPORT. Requests taken in a settled state: the readouts, SET_REPEAT and REPEAT_RESTART, with what the end of the event leaves where the
action has raised notices.
-/

namespace Sys2Proof.Machine

/-! ### The end of an event at one port -/

theorem foldl_arbitrate_others {p : Port} (ps : List Port) : ∀ {s : State}, p ∉ ps → (ps.foldl arbitrate s).port p = s.port p := by
  induction ps with
  | nil => exact fun _ => rfl
  | cons q ps ih =>
    intro s no
    rw [List.mem_cons, not_or] at no
    rw [List.foldl_cons, ih no.2]
    exact (arbitrate_spec s q).2.1 p no.1

/-- The arbiters of the other ports choose before and after a port's own, which acts once. -/
theorem allPorts_split (p : Port) : ∃ before after, allPorts = before ++ p :: after ∧ p ∉ before ∧ p ∉ after := by
  cases p
  · exact ⟨[], [.c1, .c2, .c3], rfl, by decide, by decide⟩
  · exact ⟨[.c0], [.c2, .c3], rfl, by decide, by decide⟩
  · exact ⟨[.c0, .c1], [.c3], rfl, by decide, by decide⟩
  · exact ⟨[.c0, .c1, .c2], [], rfl, by decide, by decide⟩

/-- A port at the end of an event, from what its own arbiter does with it whatever the other ports have done (R135, R141). -/
theorem settle_port_own {s : State} {p : Port} {c : ConsumerPort} (own : ∀ u, u.port p = s.port p → (arbitrate u p).port p = c) :
    ∃ stall, (settle s).port p = { c with stall := stall } := by
  obtain ⟨before, after, split, notBefore, notAfter⟩ := allPorts_split p
  have chosen : (allPorts.foldl arbitrate s).port p = c := by
    rw [split, List.foldl_append, List.foldl_cons, foldl_arbitrate_others after notAfter]
    exact own _ (foldl_arbitrate_others before notBefore)
  rw [settle_port, chosen]
  exact judgeStall_kept _ c

theorem arbitrate_busy {s : State} {p : Port} (busy : (s.port p).outbound.isSome = true) : arbitrate s p = s :=
  (arbitrate_eq_self s p).mpr fun _ idle => by simp [idle] at busy

theorem arbitrate_responds {s : State} {p : Port} {r : Response} {rest : List Response} (up : (s.port p).isUp = true)
    (idle : (s.port p).outbound = none) (waits : (s.port p).responses = r :: rest) :
    arbitrate s p = s.setPort p { s.port p with responses := rest, outbound := some (.response r) } := by
  unfold arbitrate
  dsimp only
  split
  next down => simp [ConsumerPort.isUp, down] at up
  next busy _ => simp [idle] at busy
  · rw [waits]

/-! ### The taking of a request -/

/-- A state in which a port's request has left its queue and nothing else has happened. -/
def requestLeft (p : Port) (rest : List RequestFrame) (s : State) : State := s.setPort p { s.port p with requests := rest }

theorem Taken.isUp {s : State} {p : Port} {f : RequestFrame} {rest : List RequestFrame} (taken : Taken s p f rest) :
    (s.port p).isUp = true := by
  have takes := taken.takes
  simp only [State.takesRequests, Bool.and_eq_true] at takes
  exact takes.1.1

/-- A request taken: its action, the response, and the end of the event (R165). -/
theorem takeRequest_taken {s t : State} {p : Port} {f : RequestFrame} {rest : List RequestFrame} {k : Option RequestKind}
    {act : RequestFrame → State → State × Answer} {a : Answer} (taken : Taken s p f rest) (kind : f.requestKind = k)
    (does : act f (requestLeft p rest s) = (t, a)) : takeRequest p k act s = .next (settle (respond p f a t)) := by
  change act f (s.setPort p { s.port p with requests := rest }) = _ at does
  unfold takeRequest
  rw [taken.head]
  simp only [kind, taken.takes, and_self, if_true, does]

/-- A request in a settled state whose action leaves the state as it is: it leaves the queue and is answered (R165). -/
theorem takeRequest_answered {s : State} {p : Port} {f : RequestFrame} {rest : List RequestFrame} {k : Option RequestKind}
    {act : RequestFrame → State → State × Answer} {a : Answer} (h : Settled s) (taken : Taken s p f rest) (kind : f.requestKind = k)
    (does : act f (requestLeft p rest s) = (requestLeft p rest s, a)) :
    takeRequest p k act s = .next (answered p rest (a.response f) s) := by
  rw [takeRequest_settled h taken kind does rfl rfl (State.port_setPort_self _ _ _) fun q hq => State.port_setPort_ne _ _ hq]
  exact congrArg _ (State.setPort_setPort _ _ _ _)

theorem respond_pendingSet (p : Port) (f : RequestFrame) (a : Answer) (s : State) (q : Port) :
    ((respond p f a s).port q).pendingSet = (s.port q).pendingSet := by
  rw [respond, State.port_setPort]
  split
  next e => rw [e]
  · rfl

/-- A request in a settled state whose action, at the port that takes it, raises notices alone: the response is begun on an idle link,
before any notice frame, and waits as the last on a busy one (R135, R165). -/
theorem delivered_of_raises {s t : State} {p : Port} {f : RequestFrame} {rest : List RequestFrame} {a : Answer} (h : Settled s)
    (up : (s.port p).isUp = true)
    (own : ∃ pending notice, t.port p = { s.port p with requests := rest, pendingSet := pending, notice := notice }) :
    Delivered s (settle (respond p f a t)) p rest (a.response f) := by
  obtain ⟨pending, notice, port⟩ := own
  set u := respond p f a t
  have uPort : u.port p = { s.port p with
      requests := rest, pendingSet := pending, notice := notice, responses := (s.port p).responses ++ [a.response f] } := by
    rw [show u.port p = _ from State.port_setPort_self _ _ _, port]
  unfold Delivered
  cases outbound : (s.port p).outbound with
  | some g =>
    obtain ⟨stall, kept⟩ := settle_port_own (s := u) (p := p) (c := u.port p) fun v same => by
      rw [arbitrate_busy (by rw [same, uPort]; simp [outbound]), same]
    rw [kept, uPort]
    exact ⟨rfl, outbound, rfl⟩
  | none =>
    have none_waits : (s.port p).responses = [] :=
      (h.port_restful p (fun down => by simp [ConsumerPort.isUp, down] at up) outbound).1
    obtain ⟨stall, kept⟩ := settle_port_own (s := u) (p := p)
      (c := { u.port p with responses := [], outbound := some (.response (a.response f)) }) fun v same => by
        rw [arbitrate_responds (r := a.response f) (rest := []) (by rw [same, uPort]; exact up) (by rw [same, uPort]; exact outbound)
          (by rw [same, uPort, none_waits]; rfl), State.port_setPort_self, same]
    rw [kept, uPort]
    exact ⟨rfl, rfl⟩

theorem asHolder_holder {p : Port} {act : RequestFrame → State → State × Answer} {s : State} (holder : s.shared.holder = some p)
    (f : RequestFrame) : asHolder p act f s = act f s := if_pos holder

theorem withFields_read {α : Type} {read : List Byte → Option α} {act : α → State → State × Answer} {f : RequestFrame} {x : α}
    (fields : read f.fields = some x) (s : State) : withFields read act f s = act x s := by
  unfold withFields
  rw [fields]

/-! ### Fields read back (11.3) -/

theorem readByte_leBytes {n : Nat} (h : n < 256) : readByte (leBytes 1 n) = some n := congrArg some (byte_toNat h)

theorem readTable_fields {n i : Nat} (lane : n < 256) (entry : i < 65536) :
    readTable (Request.tableRead n i).fields = some (n, i) := by
  have read : readTable (Request.tableRead n i).fields = some ((BitVec.ofNat 8 n).toNat, leValue (leBytes 2 i)) := rfl
  rw [read, byte_toNat lane, leValue_leBytes entry]

/-- A repeat settings record is read back from its field bytes (11.3). -/
theorem readRepeat_fields {r : RepeatSettings} (h : (Request.setRepeat r).fits) : readRepeat (Request.setRepeat r).fields = some r := by
  obtain ⟨length, m, wc, cmax, qacq, kmiss⟩ := h
  have read : readRepeat (Request.setRepeat r).fields =
      match boolOfCode (BitVec.ofNat 8 (codeOfBool r.tracking)).toNat, edgeOfCode (BitVec.ofNat 8 (codeOfEdge r.edge)).toNat with
      | some tracking, some edge => some {
          length := leValue (leBytes 4 r.length), tracking := tracking, edge := edge, m := leValue (leBytes 4 r.m)
          wc := leValue (leBytes 2 r.wc), cmax := (BitVec.ofNat 8 r.cmax).toNat, qacq := (BitVec.ofNat 8 r.qacq).toNat
          kmiss := (BitVec.ofNat 8 r.kmiss).toNat }
      | _, _ => none := rfl
  rw [read, byte_toNat (codes_lt.1 r.tracking), byte_toNat (codes_lt.2.1 r.edge), boolOfCode_codeOfBool, edgeOfCode_codeOfEdge,
    leValue_leBytes length, leValue_leBytes m, leValue_leBytes wc, byte_toNat cmax, byte_toNat qacq, byte_toNat kmiss]

/-! ### Readouts -/

/-- A readout with its fields read: it answers from the state, of which the request's leaving the queue changes nothing the answer looks
at (R165). -/
theorem takeRequest_readout {α : Type} {s : State} {p : Port} {r : Request} {tag : Byte} {rest : List RequestFrame}
    {read : List Byte → Option α} {answer : α → State → Answer} {x : α} {a : Answer} (h : Settled s)
    (taken : Taken s p (r.frame tag) rest) (fields : read r.fields = some x) (same : answer x (requestLeft p rest s) = a) :
    takeRequest p (some r.kind) (withFields read fun x => inform (answer x)) s = .next (answered p rest (responseTo r tag a) s) := by
  refine takeRequest_answered h taken (Request.frame_kind r tag) ?_
  rw [withFields_read (by exact fields), inform, same]

/-- Settles O44: each readout by `takeRequest_readout`. -/
theorem readouts : Obligations.Readouts := by
  unfold Obligations.Readouts
  intro s p tag rest settled r
  refine ⟨fun taken => ?_, fun taken => ?_, fun n lane taken => ?_, fun n i lane entry taken => ?_, fun taken => ?_,
    fun id window taken => ?_⟩
  · exact takeRequest_readout settled taken (x := ()) rfl rfl
  · exact takeRequest_readout settled taken (x := ()) rfl rfl
  · refine takeRequest_readout (answer := laneInfo) settled taken (readByte_leBytes lane) ?_
    unfold laneInfo
    cases laneOfNumber n <;> rfl
  · refine takeRequest_readout (answer := tableRead) settled taken (readTable_fields lane entry) ?_
    unfold tableRead
    cases laneOfNumber n with
    | none => rfl
    | some k =>
      have bound : i < Config.tableEntries ↔ i ≤ 8191 := Nat.lt_succ_iff
      simp only [bound]
      rfl
  · exact takeRequest_readout settled taken (x := ()) rfl rfl
  · refine takeRequest_readout (answer := windowInfo) settled taken (readByte_leBytes window) ?_
    have bound : id < Config.windowCount ↔ ¬63 < id := by
      rw [Nat.not_lt]
      exact Nat.lt_succ_iff
    unfold windowInfo
    simp only [bound, ite_not]
    rfl

/-! ### SET_REPEAT and REPEAT_RESTART -/

/-- Settles O30. -/
theorem setRepeatTaken : Obligations.SetRepeatTaken := by
  unfold Obligations.SetRepeatTaken
  intro s p tag rest r settled taken fits holder
  set f := (Request.setRepeat r).frame tag
  set t := requestLeft p rest s
  have kind : f.requestKind = some .setRepeat := Request.frame_kind _ tag
  have read : asHolder p (withFields readRepeat setRepeat) f t = setRepeat r t := by
    rw [asHolder_holder (by exact holder), withFields_read (readRepeat_fields fits)]
  show takeRequest p (some .setRepeat) (asHolder p (withFields readRepeat setRepeat)) s = _
  split
  next inRange =>
    have does : setRepeat r t = (t.withRu { s.ru with pendingSettings := some r }, { code := .done }) :=
      if_pos (by simpa [RepeatSettings.inRange] using inRange)
    rw [takeRequest_settled settled taken kind (read.trans does) rfl rfl (State.port_setPort_self _ _ _)
      fun q hq => State.port_setPort_ne _ _ hq]
    exact congrArg (fun u : State => Host.Outcome.next (u.withRu _)) (State.setPort_setPort s p _ _)
  next outside =>
    have does : setRepeat r t = (t, { code := .range }) := if_neg (by simpa [RepeatSettings.inRange] using outside)
    exact takeRequest_answered settled taken kind (read.trans does)

/-- Settles O29. -/
theorem repeatRestartTaken : Obligations.RepeatRestartTaken := by
  unfold Obligations.RepeatRestartTaken
  intro s p tag rest settled taken holder l
  set v := (requestLeft p rest s).withRu { s.ru with restart := some .requested, chain := none } with hv
  have kind : (Request.repeatRestart.frame tag).requestKind = some .repeatRestart := Request.frame_kind _ tag
  have does : asHolder p (withFields readNothing repeatRestart) (Request.repeatRestart.frame tag) (requestLeft p rest s)
      = (goLock l v, { code := .done }) := by
    rw [asHolder_holder (by exact holder), withFields_read (x := ()) rfl]
    rfl
  have run : exec (.repeatRestart p) s = _ := takeRequest_taken taken kind does
  obtain ⟨_, next, agree⟩ := commandFrames (.repeatRestart p) s
  rw [run] at next
  cases next
  have vPort : ∀ q, (v.port q).isUp = (s.port q).isUp ∧ (v.port q).pendingSet = (s.port q).pendingSet := by
    intro q
    rw [hv, State.port_withRu, requestLeft, State.port_setPort]
    split
    next e => subst e; exact ⟨rfl, rfl⟩
    · exact ⟨rfl, rfl⟩
  have own : v.port p = { s.port p with requests := rest } := State.port_setPort_self _ _ _
  refine ⟨_, run, ?_, delivered_of_raises settled taken.isUp ?_, fun differs q => ?_, fun same q => ?_, agree⟩
  · rw [settle_ru, respond, State.setPort_ru, goLock_ru]
    rfl
  · obtain ⟨pending, notice, e⟩ := (goLock_raises l v).kept p
    exact ⟨pending, notice, by rw [e, own]⟩
  all_goals
    rw [settle_pendingSet, respond_pendingSet, (goLock_port l v q).2, (vPort q).1, (vPort q).2]
  · rw [if_neg (show ¬l = v.ru.lock from differs)]
  · rw [if_pos (show l = v.ru.lock from same), ite_self]

end Sys2Proof.Machine
end

section
/-!
SUPPORT. The bounded numbers of the router under one operation: the offsets, widths and FIFOs of the lanes, the edges of a search, the
queues and credit of the ports, the staging pointer and the marker queue (R46, R50, R54, R73, R133, R134, R152, R164).
-/

namespace Sys2Proof.Machine

/-! ### Lanes -/

/-- The offsets that a lane holds: the one in force, the pending one, and those recorded in its FIFO; with them every offset in range. -/
inductive LaneFrontEnd.AdmitsOffset (l : LaneFrontEnd) : Nat → Prop where
  | inRange {o : Nat} (h : o ≤ 4095) : l.AdmitsOffset o
  | inForce : l.AdmitsOffset l.offset
  | pending {o : Nat} (h : l.pendingOffset = some o) : l.AdmitsOffset o
  | recorded {e : FifoEntry} (h : e ∈ l.fifo) : l.AdmitsOffset e.offset

/-- The widths with column bases that a lane holds, in force and pending; with them every one in range. -/
inductive LaneFrontEnd.AdmitsWidth (l : LaneFrontEnd) : Nat → Nat → Prop where
  | inRange {width base : Nat} (h : WidthOk width base) : l.AdmitsWidth width base
  | inForce : l.AdmitsWidth l.width l.base
  | pending {item : Nat × Nat} (h : l.pendingWidth = some item) : l.AdmitsWidth item.1 item.2

/-- A lane's record holds no offset or width that is neither in range nor an earlier one's, and its FIFO depth and drain count are at most
the capacity or the earlier ones. -/
structure LaneFrontEnd.Confined (l x : LaneFrontEnd) : Prop where
  offset : l.AdmitsOffset x.offset
  pendingOffset : ∀ o, x.pendingOffset = some o → l.AdmitsOffset o
  fifo : ∀ e ∈ x.fifo, l.AdmitsOffset e.offset
  width : l.AdmitsWidth x.width x.base
  pendingWidth : ∀ item, x.pendingWidth = some item → l.AdmitsWidth item.1 item.2
  load : max x.fifo.length x.drain ≤ max (max l.fifo.length l.drain) Config.fifoCapacity

namespace LaneFrontEnd.Confined

variable {l x y : LaneFrontEnd}

theorem refl (l : LaneFrontEnd) : l.Confined l :=
  ⟨.inForce, fun _ h => .pending h, fun _ h => .recorded h, .inForce, fun _ h => .pending h, Nat.le_max_left _ _⟩

theorem admitsOffset (h : l.Confined x) {o : Nat} (admits : x.AdmitsOffset o) : l.AdmitsOffset o := by
  cases admits with
  | inRange small => exact .inRange small
  | inForce => exact h.offset
  | pending item => exact h.pendingOffset _ item
  | recorded mem => exact h.fifo _ mem

theorem admitsWidth (h : l.Confined x) {width base : Nat} (admits : x.AdmitsWidth width base) : l.AdmitsWidth width base := by
  cases admits with
  | inRange ok => exact .inRange ok
  | inForce => exact h.width
  | pending item => exact h.pendingWidth _ item

theorem trans (h : l.Confined x) (g : x.Confined y) : l.Confined y where
  offset := h.admitsOffset g.offset
  pendingOffset := fun o item => h.admitsOffset (g.pendingOffset o item)
  fifo := fun e mem => h.admitsOffset (g.fifo e mem)
  width := h.admitsWidth g.width
  pendingWidth := fun item pending => h.admitsWidth (g.pendingWidth item pending)
  load := g.load.trans (max_le h.load (Nat.le_max_right _ _))

/-- A record that differs in none of the bounded numbers but the FIFO, of which it keeps some entries, and the drain count. -/
theorem of_sublist (width : x.width = l.width) (base : x.base = l.base) (pendingWidth : x.pendingWidth = l.pendingWidth)
    (offset : x.offset = l.offset) (pendingOffset : x.pendingOffset = l.pendingOffset) (fifo : x.fifo.Sublist l.fifo)
    (drain : x.drain ≤ max l.fifo.length l.drain) : l.Confined x where
  offset := by rw [offset]; exact .inForce
  pendingOffset := fun o h => .pending (by rw [← pendingOffset]; exact h)
  fifo := fun e mem => .recorded (fifo.subset mem)
  width := by rw [width, base]; exact .inForce
  pendingWidth := fun item h => .pending (by rw [← pendingWidth]; exact h)
  load := by have := fifo.length_le; omega

/-- A record that differs in none of the bounded numbers. -/
theorem of_eq (width : x.width = l.width) (base : x.base = l.base) (pendingWidth : x.pendingWidth = l.pendingWidth)
    (offset : x.offset = l.offset) (pendingOffset : x.pendingOffset = l.pendingOffset) (fifo : x.fifo = l.fifo)
    (drain : x.drain = l.drain) : l.Confined x :=
  of_sublist width base pendingWidth offset pendingOffset (by rw [fifo]) (by omega)

/-- An entry that joins the FIFO where it has room (R54). -/
theorem append (h : l.Confined x) {e : FifoEntry} (offset : l.AdmitsOffset e.offset)
    (room : x.fifo.length < max l.fifo.length Config.fifoCapacity) : l.Confined { x with fifo := x.fifo ++ [e] } :=
  { h with
    fifo := fun a mem => by
      rcases List.mem_append.mp mem with old | new
      · exact h.fifo a old
      · rw [List.mem_singleton.mp new]; exact offset
    load := by
      have := h.load
      simp only [List.length_append, List.length_singleton]
      omega }

/-- A pending offset that is in range (R88). -/
theorem stage {o : Option Nat} (small : ∀ n, o = some n → n ≤ 4095) : l.Confined { l with pendingOffset := o } :=
  { refl l with pendingOffset := fun n h => .inRange (small n h) }

theorem initial (k : Lane) (linkUp : Bool) : l.Confined (LaneFrontEnd.initial k linkUp) where
  offset := .inRange (Nat.zero_le _)
  pendingOffset := nofun
  fifo := nofun
  width := .inRange (show WidthOk 4096 (laneNumber k * 4096) by cases k <;> decide)
  pendingWidth := nofun
  load := Nat.zero_le _

end LaneFrontEnd.Confined

/-! ### Ports -/

/-- A port's queues and credit are at most their bounds or the earlier ones, and neither its requests nor its responses are more. -/
structure ConsumerPort.Confined (c d : ConsumerPort) : Prop where
  queues : ∀ cls, (d.queue cls).length ≤ max (c.queue cls).length Config.queueCapacity
  credit : d.credit ≤ max c.credit Config.creditMax
  requests : d.requests.length ≤ c.requests.length
  responses : d.responses.length ≤ c.responses.length

namespace ConsumerPort.Confined

variable {c d e : ConsumerPort}

theorem trans (h : c.Confined d) (g : d.Confined e) : c.Confined e where
  queues := fun cls => (g.queues cls).trans (max_le (h.queues cls) (Nat.le_max_right _ _))
  credit := g.credit.trans (max_le h.credit (Nat.le_max_right _ _))
  requests := g.requests.trans h.requests
  responses := g.responses.trans h.responses

/-- A port with no more in any queue. -/
theorem of_le (essential : d.essential.length ≤ c.essential.length) (sheddable : d.sheddable.length ≤ c.sheddable.length)
    (credit : d.credit ≤ c.credit) (requests : d.requests.length ≤ c.requests.length)
    (responses : d.responses.length ≤ c.responses.length) : c.Confined d where
  queues := fun cls => by
    cases cls with
    | essential => exact essential.trans (Nat.le_max_left _ _)
    | sheddable => exact sheddable.trans (Nat.le_max_left _ _)
  credit := credit.trans (Nat.le_max_left _ _)
  requests := requests
  responses := responses

theorem of_eq (essential : d.essential = c.essential) (sheddable : d.sheddable = c.sheddable) (credit : d.credit = c.credit)
    (requests : d.requests = c.requests) (responses : d.responses = c.responses) : c.Confined d :=
  of_le (by rw [essential]) (by rw [sheddable]) (by rw [credit]) (by rw [requests]) (by rw [responses])

theorem refl (c : ConsumerPort) : c.Confined c := of_eq rfl rfl rfl rfl rfl

theorem initial (state : PortState) (linkUp : Bool) : c.Confined (ConsumerPort.initial state linkUp) :=
  of_le (Nat.zero_le _) (Nat.zero_le _) (Nat.zero_le _) (Nat.zero_le _) (Nat.zero_le _)

/-- A queue of a class replaced by one within its bound. -/
theorem setQueue {cls : DeliveryClass} {q : List Entry} (room : q.length ≤ max (c.queue cls).length Config.queueCapacity) :
    c.Confined (c.setQueue cls q) := by
  cases cls with
  | essential =>
    refine ⟨fun cls => ?_, Nat.le_max_left _ _, Nat.le_refl _, Nat.le_refl _⟩
    cases cls with
    | essential => exact room
    | sheddable => exact Nat.le_max_left _ _
  | sheddable =>
    refine ⟨fun cls => ?_, Nat.le_max_left _ _, Nat.le_refl _, Nat.le_refl _⟩
    cases cls with
    | essential => exact Nat.le_max_left _ _
    | sheddable => exact room

end ConsumerPort.Confined

@[simp] theorem ConsumerPort.queue_setQueue (c : ConsumerPort) (cls : DeliveryClass) (q : List Entry) : (c.setQueue cls q).queue cls = q := by
  cases cls <;> rfl

/-! ### The router -/

/-- Some lane of a search has an edge that was taken under an offset (R84). -/
def Search.HasEdge (x : Search) (o : Nat) : Prop := ∃ k r e, x.records.get k = some r ∧ r.edge = some e ∧ e.offset = o

/-- The offsets that the router holds: those of its lanes, and those recorded in the edges of a search in progress. -/
inductive State.Admits (s : State) : Nat → Prop where
  | lane (k : Lane) {o : Nat} (h : (s.lane k).AdmitsOffset o) : s.Admits o
  | edge {x : Search} {o : Nat} (searching : s.le = .searching x) (h : x.HasEdge o) : s.Admits o

/-- No bounded number of the router is beyond its bound unless it was so before. -/
structure State.Confined (s t : State) : Prop where
  lanes : ∀ k, (s.lane k).Confined (t.lane k)
  edges : ∀ x o, t.le = .searching x → x.HasEdge o → s.Admits o
  ports : ∀ p, (s.port p).Confined (t.port p)
  pointer : t.cb.pointer ≤ max s.cb.pointer 255
  markers : t.mku.queue.length ≤ max s.mku.queue.length Config.markerCapacity

/-- The bounded lists and counts speak of numbers that are confined. -/
theorem CapacityOk.confined {s t : State} (h : CapacityOk s) (c : s.Confined t) : CapacityOk t where
  fifo := fun k => by have := (c.lanes k).load; have := h.fifo k; have := h.drain k; omega
  drain := fun k => by have := (c.lanes k).load; have := h.fifo k; have := h.drain k; omega
  pointer := by have := c.pointer; have := h.pointer; rw [Config.pageEntries] at *; omega
  queues := fun p cls => ((c.ports p).queues cls).trans (max_le (h.queues p cls) (Nat.le_refl _))
  credit := fun p => (c.ports p).credit.trans (max_le (h.credit p) (Nat.le_refl _))
  requests := fun p => (c.ports p).requests.trans (h.requests p)
  responses := fun p => (c.ports p).responses.trans (h.responses p)
  markers := c.markers.trans (max_le h.markers (Nat.le_refl _))

/-- Under the invariant of the lanes every offset that the router holds is in range. -/
theorem LanesOk.le_of_admits {s : State} (h : LanesOk s) {o : Nat} (admits : s.Admits o) : o ≤ 4095 := by
  cases admits with
  | lane k held =>
    cases held with
    | inRange small => exact small
    | inForce => exact h.offset k
    | pending item => exact h.pendingOffset k o item
    | recorded mem => exact h.fifo k _ mem
  | edge searching held =>
    obtain ⟨k, r, e, record, edge, rfl⟩ := held
    exact h.edges _ k r e searching record edge

theorem LanesOk.widthOk_of_admits {s : State} (h : LanesOk s) {k : Lane} {width base : Nat}
    (admits : (s.lane k).AdmitsWidth width base) : WidthOk width base := by
  cases admits with
  | inRange ok => exact ok
  | inForce => exact h.width k
  | pending item => exact h.pendingWidth k _ item

theorem LanesOk.confined {s t : State} (h : LanesOk s) (c : s.Confined t) : LanesOk t where
  width := fun k => h.widthOk_of_admits (c.lanes k).width
  pendingWidth := fun k item pending => h.widthOk_of_admits ((c.lanes k).pendingWidth item pending)
  offset := fun k => h.le_of_admits (.lane k (c.lanes k).offset)
  pendingOffset := fun k o pending => h.le_of_admits (.lane k ((c.lanes k).pendingOffset o pending))
  fifo := fun k e mem => h.le_of_admits (.lane k ((c.lanes k).fifo e mem))
  edges := fun x k r e searching record edge => h.le_of_admits (c.edges x e.offset searching ⟨k, r, e, record, edge, rfl⟩)

namespace State.Confined

variable {s t u : State}

theorem admits (h : s.Confined t) {o : Nat} (admits : t.Admits o) : s.Admits o := by
  cases admits with
  | lane k held => exact .lane k ((h.lanes k).admitsOffset held)
  | edge searching held => exact h.edges _ o searching held

theorem trans (h : s.Confined t) (g : t.Confined u) : s.Confined u where
  lanes := fun k => (h.lanes k).trans (g.lanes k)
  edges := fun x o searching held => h.admits (g.edges x o searching held)
  ports := fun p => (h.ports p).trans (g.ports p)
  pointer := g.pointer.trans (max_le h.pointer (Nat.le_max_right _ _))
  markers := g.markers.trans (max_le h.markers (Nat.le_max_right _ _))

/-- An operation that leaves the lanes, the engine, the Correction Block and the Marker Unit, and confines the ports. -/
theorem of_ports {A : List Part} (agree : State.Agree A s t) (ports : ∀ p, (s.port p).Confined (t.port p))
    (spared : ∀ x ∈ [Part.lanes, .le, .cb, .mku], x ∉ A) : s.Confined t where
  lanes := fun k => by
    rw [State.lane_congr (agree.lanes (spared _ (by decide)))]
    exact .refl _
  edges := fun x o searching held => .edge (by rw [← agree.le (spared _ (by decide))]; exact searching) held
  ports := ports
  pointer := by rw [agree.cb (spared _ (by decide))]; exact Nat.le_max_left _ _
  markers := by rw [agree.mku (spared _ (by decide))]; exact Nat.le_max_left _ _

theorem refl (s : State) : s.Confined s := of_ports (.refl [] s) (fun _ => .refl _) (by decide)

/-- An operation that leaves the ports as well. -/
theorem of_agree {A : List Part} (agree : State.Agree A s t) (spared : ∀ x ∈ [Part.lanes, .le, .cb, .mku, .ports], x ∉ A) :
    s.Confined t :=
  of_ports agree (fun p => by
    rw [show t.port p = s.port p from congrArg (PerPort.get · p) (agree.ports (spared _ (by decide)))]
    exact .refl _)
    fun x mem => spared x (by simp only [List.mem_cons, List.not_mem_nil, or_false] at mem ⊢; tauto)

theorem of_raises {A : List Part} (agree : State.Agree A s t) (raises : OnlyRaises s t)
    (spared : ∀ x ∈ [Part.lanes, .le, .cb, .mku], x ∉ A) : s.Confined t :=
  of_ports agree (fun p => by
    obtain ⟨_, _, e⟩ := raises.kept p
    rw [e]
    exact .of_eq rfl rfl rfl rfl rfl) spared

theorem ite {c : Prop} [Decidable c] (h : s.Confined t) (g : s.Confined u) : s.Confined (if c then t else u) := by
  split
  · exact h
  · exact g

theorem foldl {α : Type} {f : State → α → State} (h : ∀ (s : State) x, s.Confined (f s x)) (l : List α) :
    ∀ s : State, s.Confined (l.foldl f s) := by
  induction l with
  | nil => exact refl
  | cons x l ih => exact fun s => (h s x).trans (ih _)

theorem setPort {p : Port} {c : ConsumerPort} (h : (s.port p).Confined c) : s.Confined (s.setPort p c) :=
  of_ports (A := [.ports]) (agree_setPort s p c (by decide)) (fun q => by
    rw [State.port_setPort]
    split
    next e => subst e; exact h
    · exact .refl _) (by decide)

theorem setLane (h : s.Confined t) {k : Lane} {x : LaneFrontEnd} (own : (s.lane k).Confined x) : s.Confined (t.setLane k x) where
  lanes := fun j => by
    rw [State.lane_setLane]
    split
    next e => subst e; exact own
    · exact h.lanes j
  edges := h.edges
  ports := h.ports
  pointer := h.pointer
  markers := h.markers

theorem updateLane {k : Lane} {f : LaneFrontEnd → LaneFrontEnd} (h : (s.lane k).Confined (f (s.lane k))) :
    s.Confined (updateLane k f s) := (refl s).setLane h

end State.Confined

theorem withBsc_confined (s : State) (x : BandStore) : s.Confined (s.withBsc x) :=
  .of_agree (A := [.bsc]) (agree_withBsc s x (by decide)) (by decide)

theorem withWindows_confined (s : State) (x : List (Nat × Window)) : s.Confined (s.withWindows x) :=
  .of_agree (A := [.windows]) (agree_withWindows s x (by decide)) (by decide)

theorem withMu_confined (s : State) (x : MotionUnit) : s.Confined (s.withMu x) :=
  .of_agree (A := [.mu]) (agree_withMu s x (by decide)) (by decide)

theorem withShared_confined (s : State) (x : SharedRecord) : s.Confined (s.withShared x) :=
  .of_agree (A := [.shared]) (agree_withShared s x (by decide)) (by decide)

theorem raiseWhere_confined (sel : Port → ConsumerPort → Bool) (k : NoticeKind) (s : State) : s.Confined (raiseWhere sel k s) :=
  .of_raises (A := [.ports]) (raiseWhere_agree sel k s (by decide)) (raiseWhere_raises sel k s) (by decide)

/-! ### Releases, matching and seals -/

theorem judgePressure_confined (s : State) : s.Confined (judgePressure s) :=
  .of_raises (A := [.bsc, .ports]) (judgePressure_agree s (by decide) (by decide)) (judgePressure_raises s) (by decide)

theorem freeSlot_confined (slot : Nat) (s : State) : s.Confined (freeSlot slot s) :=
  (withBsc_confined s _).trans (judgePressure_confined _)

theorem releaseSlot_confined (slot : Nat) (s : State) : s.Confined (releaseSlot slot s) := by
  unfold releaseSlot
  split
  · exact .refl s
  · split
    · exact .refl s
    · exact .ite (freeSlot_confined slot s) (withBsc_confined s _)

theorem releaseEntries_confined (es : List Entry) (s : State) : s.Confined (releaseEntries es s) :=
  .foldl (f := fun s (e : Entry) => releaseSlot e.slot s) (fun s e => releaseSlot_confined e.slot s) es s

/-- An entry joins a queue of its class only where that has room (R126). -/
theorem appendEntry_confined {w : Window} {slot id : Nat} {b : Band} {s : State} (allowed : entryAllowed w s = true) :
    s.Confined (appendEntry w.owner (clipEntry slot id w b) s) := by
  simp only [entryAllowed, Bool.and_eq_true, decide_eq_true_eq] at allowed
  obtain ⟨_, room⟩ := allowed
  refine .setPort (.setQueue ?_)
  rw [List.length_append, List.length_singleton]
  exact (Nat.succ_le_of_lt room).trans (Nat.le_max_right _ _)

theorem loseMatch_confined (id : Nat) (w : Window) (s : State) : s.Confined (loseMatch id w s) :=
  (withWindows_confined s _).trans (.setPort (.of_eq rfl rfl rfl rfl rfl))

theorem matchWindow_confined (slot : Nat) (b : Band) (acc : State × Nat) (id : Nat) :
    acc.1.Confined (matchWindow slot b acc id).1 := by
  unfold matchWindow
  split
  · exact .refl _
  · split
    · split
      next allowed => exact appendEntry_confined allowed
      · exact loseMatch_confined _ _ _
    · exact .refl _

theorem matchBand_confined (slot : Nat) (b : Band) (s : State) : s.Confined (matchBand slot b s).1 := by
  suffices h : ∀ (ids : List Nat) (acc : State × Nat), acc.1.Confined (ids.foldl (matchWindow slot b) acc).1 from h _ (s, 0)
  intro ids
  induction ids with
  | nil => exact fun acc => .refl _
  | cons id ids ih => exact fun acc => (matchWindow_confined slot b acc id).trans (ih _)

theorem sealBand_confined (k : Lane) (stop : Bool) (s : State) : s.Confined (sealBand k stop s) := by
  unfold sealBand
  split
  · exact .refl s
  · split
    · exact withBsc_confined s _
    · have matched := fun slot b =>
        ((withBsc_confined s { s.bsc with sealSequence := s.bsc.sealSequence + 1 }).trans
          (withBsc_confined _ { s.bsc with
            sealSequence := s.bsc.sealSequence + 1, filling := s.bsc.filling.set k none })).trans (matchBand_confined slot b _)
      exact .ite ((matched _ _).trans (freeSlot_confined _ _)) ((matched _ _).trans (withBsc_confined _ _))

theorem stopSeal_confined (s : State) : s.Confined (stopSeal s) := .foldl (fun s k => sealBand_confined k true s) allLanes s

/-! ### Placements -/

theorem extendBand_confined (slot : Nat) (b : Band) (x : Placement) (s : State) : s.Confined (extendBand slot b x s) := by
  unfold extendBand
  extract_lets written
  have stored : s.Confined written := by
    unfold written
    split
    · exact withBsc_confined s _
    · exact (withBsc_confined s _).trans (.of_agree (A := [.dram]) (agree_withDram _ _ (by decide)) (by decide))
  exact .ite (stored.trans (sealBand_confined _ _ _)) stored

theorem openBand_confined (x : Placement) (s : State) : s.Confined (openBand x s) := by
  unfold openBand
  split
  · exact withBsc_confined s _
  · exact ((withBsc_confined s _).trans (judgePressure_confined _)).trans (extendBand_confined _ _ _ _)

theorem place_confined (x : Placement) (s : State) : s.Confined (place x s) := by
  have next : s.Confined (openBand x (sealBand x.lane false s)) := (sealBand_confined _ _ s).trans (openBand_confined x _)
  unfold place
  split
  · exact openBand_confined x s
  · split
    · exact next
    · exact .ite (extendBand_confined _ _ x s) next

/-! ### Closures, failures and the end of an event -/

theorem withdraw_confined (id : Nat) (cls : DeliveryClass) (s : State) (p : Port) : s.Confined (withdraw id cls s p) :=
  .trans (.setPort (.setQueue ((List.length_filter_le _ _).trans (Nat.le_max_left _ _)))) (releaseEntries_confined _ _)

theorem closeWindow_confined (id : Nat) (s : State) : s.Confined (closeWindow id s) := by
  unfold closeWindow
  split
  · exact .refl s
  next w _ =>
    refine .trans (.foldl (withdraw_confined id w.cls) allPorts s) ?_
    dsimp only
    split
    · exact withWindows_confined _ _
    · exact withWindows_confined _ _

theorem closingStripEnd_confined (id : Nat) (s : State) : s.Confined (closingStripEnd id s) :=
  .of_agree (A := [.windows]) (closingStripEnd_agree id s (by decide)) (by decide)

theorem markLost_confined (id : Nat) (s : State) : s.Confined (markLost id s) := by
  unfold markLost
  split
  · exact .refl s
  · exact .ite (withWindows_confined s _) (.refl s)

theorem countDropped_confined (p : Port) (s : State) : s.Confined (countDropped p s) := .setPort (.of_eq rfl rfl rfl rfl rfl)

theorem loseEntry_confined (p : Port) (s : State) (e : Entry) : s.Confined (loseEntry p s e) :=
  ((releaseSlot_confined _ s).trans (markLost_confined _ _)).trans (countDropped_confined p _)

/-- The standby takes of a failed port's queue what it has room for (R146). -/
theorem moveQueue_confined (p st : Port) (cls : DeliveryClass) (s : State) : s.Confined (moveQueue p st cls s) := by
  unfold moveQueue
  extract_lets q room emptied moved
  have shorter : ((emptied.port st).queue cls).length ≤ ((s.port st).queue cls).length := by
    unfold emptied
    rw [State.port_setPort]
    split
    · rw [ConsumerPort.queue_setQueue]; exact Nat.zero_le _
    · exact Nat.le_refl _
  have leaves : s.Confined emptied := .setPort (.setQueue (Nat.zero_le _))
  have joins : emptied.Confined moved := by
    refine .setPort (.setQueue ?_)
    rw [List.length_append, List.length_take]
    omega
  exact (leaves.trans joins).trans (.foldl (loseEntry_confined p) _ _)

theorem adoptAll_confined (p st : Port) (s : State) : s.Confined (adoptAll p st s) :=
  (((withWindows_confined s _).trans (moveQueue_confined p st _ _)).trans (moveQueue_confined p st _ _)).trans (raiseWhere_confined _ _ _)

theorem releaseAll_confined (p : Port) (linkLoss : Bool) (s : State) : s.Confined (releaseAll p linkLoss s) := by
  have emptied : s.Confined (s.setPort p { s.port p with essential := [], sheddable := [] }) :=
    .setPort (.of_le (Nat.zero_le _) (Nat.zero_le _) (Nat.le_refl _) (Nat.le_refl _) (Nat.le_refl _))
  have released := emptied.trans (.foldl (loseEntry_confined p) ((s.port p).essential ++ (s.port p).sheddable) _)
  exact .ite (released.trans (.foldl (fun s id => closeWindow_confined id s) _ _)) released

theorem failPort_confined (p : Port) (linkLoss : Bool) (s : State) : s.Confined (failPort p linkLoss s) := by
  unfold failPort
  split
  · exact adoptAll_confined p _ s
  · exact releaseAll_confined p linkLoss s

theorem abortStrip_confined (p : Port) (s : State) : s.Confined (abortStrip p s) := by
  unfold abortStrip
  split
  next e _ _ =>
    have released := releaseSlot_confined e.slot s
    dsimp only
    split
    · exact released
    · exact .ite ((released.trans (markLost_confined _ _)).trans (countDropped_confined p _))
        (released.trans (closingStripEnd_confined _ _))
  all_goals exact .refl s

theorem cutLink_confined (p : Port) (s : State) : s.Confined (cutLink p s) :=
  have cut : s.Confined (s.setPort p { s.port p with linkUp := false, stall := none }) := .setPort (.of_eq rfl rfl rfl rfl rfl)
  have aborted := cut.trans (abortStrip_confined p _)
  aborted.trans (.setPort (.of_le (Nat.le_refl _) (Nat.le_refl _) (Nat.le_refl _) (Nat.le_refl _) (Nat.zero_le _)))

theorem beginStrip_confined (p : Port) (e : Entry) (s : State) : s.Confined (beginStrip p e s) := by
  have dropped : (s.port p).dropEntry.essential.length ≤ (s.port p).essential.length
      ∧ (s.port p).dropEntry.sheddable.length ≤ (s.port p).sheddable.length ∧ (s.port p).dropEntry.credit = (s.port p).credit
      ∧ (s.port p).dropEntry.requests = (s.port p).requests ∧ (s.port p).dropEntry.responses = (s.port p).responses := by
    unfold ConsumerPort.dropEntry
    split
    next h => rw [h]; exact ⟨Nat.le_succ _, Nat.le_refl _, rfl, rfl, rfl⟩
    · exact ⟨Nat.le_refl _, by rw [List.length_tail]; exact Nat.sub_le _ _, rfl, rfl, rfl⟩
  obtain ⟨essential, sheddable, credit, requests, responses⟩ := dropped
  unfold beginStrip
  split
  · split
    · exact .refl s
    · refine .trans (withWindows_confined s _) (.setPort (.of_le essential sheddable ?_ ?_ ?_))
      · exact (Nat.sub_le _ 1).trans (Nat.le_of_eq credit)
      · exact Nat.le_of_eq (congrArg List.length requests)
      · exact Nat.le_of_eq (congrArg List.length responses)
  · exact .refl s

theorem arbitrate_confined (s : State) (p : Port) : s.Confined (arbitrate s p) := by
  unfold arbitrate
  dsimp only
  split
  · exact .refl s
  · exact .refl s
  · split
    next waits =>
      refine .setPort (.of_le (Nat.le_refl _) (Nat.le_refl _) (Nat.le_refl _) (Nat.le_refl _) ?_)
      rw [waits]
      exact Nat.le_succ _
    · exact .setPort (.of_eq rfl rfl rfl rfl rfl)
    · split
      · exact .refl s
      · exact .ite (beginStrip_confined p _ s) (.refl s)

theorem settle_confined (s : State) : s.Confined (settle s) := by
  have judged : (allPorts.foldl arbitrate s).Confined (settle s) := by
    refine .of_ports (A := [.ports]) (agree_withPorts _ _ (by decide)) (fun p => ?_) (by decide)
    obtain ⟨_, e⟩ := judgeStall_kept (allPorts.foldl arbitrate s) ((allPorts.foldl arbitrate s).port p)
    rw [settle_port, e]
    exact .of_eq rfl rfl rfl rfl rfl
  exact .trans (.foldl arbitrate_confined allPorts s) judged

end Sys2Proof.Machine
end

section
/-!
SUPPORT. The bounded numbers under a search, a line event, a trigger, a link event of a lane and a due line.
-/

namespace Sys2Proof.Machine

/-! ### Searches (R84 to R89) -/

/-- A result's new offset is in range: only a FOUND lane has one (R87). -/
theorem laneResult_newOffset_le {x : Search} {cause : EndCause} {k : Lane} {r : SearchRecord} {n : Nat}
    (h : (laneResult x cause k r).newOffset = some n) : n ≤ 4095 := by
  have raw : ∀ {reference : Option Edge} {n : Nat}, (rawResult reference r).newOffset = some n → n ≤ 4095 := by
    intro reference n h
    unfold rawResult at h
    split at h
    · cases h
    · cases h
    · split at h
      · dsimp only at h
        split at h
        next inRange => cases h; omega
        · cases h
      · cases h
  unfold laneResult at h
  split at h
  · cases h
  · dsimp only at h
    split at h
    · exact raw h
    · cases h

theorem stageOffsets_confined (x : Search) (cause : EndCause) (s : State) : s.Confined (stageOffsets (x.results cause) s) where
  lanes := fun k => by
    rw [show (stageOffsets (x.results cause) s).lane k = _ from PerLane.get_map _ _ k]
    split
    · exact .refl _
    next r result =>
      split
      · rw [Search.results, PerLane.get_map, Option.map_eq_some_iff] at result
        obtain ⟨_, _, rfl⟩ := result
        exact .stage fun _ h => laneResult_newOffset_le h
      · exact .refl _
  edges := fun _ _ searching held => .edge searching held
  ports := fun _ => .refl _
  pointer := Nat.le_max_left _ _
  markers := Nat.le_max_left _ _

/-- The engine changed to one whose edges were taken under offsets that an earlier state holds. -/
theorem State.Confined.withLe {s t : State} (h : s.Confined t) {le : LevelingEngine}
    (edges : ∀ x o, le = .searching x → x.HasEdge o → s.Admits o) : s.Confined (t.withLe le) where
  lanes := h.lanes
  edges := edges
  ports := h.ports
  pointer := h.pointer
  markers := h.markers

theorem endSearch_confined (x : Search) (cause : EndCause) (w : Line) (s : State) : s.Confined (endSearch x cause w s) := by
  unfold endSearch
  extract_lets results staged
  have stages : s.Confined staged := .ite (stageOffsets_confined x cause s) (.refl s)
  exact (stages.withLe (by intro _ _ done; cases done)).trans (raiseWhere_confined _ _ _)

/-- A search with one record replaced has the edges of the others and that of the new record. -/
theorem Search.HasEdge.of_set {x : Search} {k : Lane} {r : SearchRecord} {o : Nat}
    (h : ({ x with records := x.records.set k (some r) } : Search).HasEdge o) :
    x.HasEdge o ∨ ∃ e, r.edge = some e ∧ e.offset = o := by
  obtain ⟨j, q, e, record, edge, offset⟩ := h
  rw [PerLane.get_set] at record
  split at record
  · cases record
    exact .inr ⟨e, edge, offset⟩
  · exact .inl ⟨j, q, e, record, edge, offset⟩

/-- A lane's record in the search replaced by one whose edge an earlier state's offsets admit. -/
theorem State.Confined.setRecord {s t : State} (h : s.Confined t) {x : Search} {k : Lane} {r : SearchRecord} (searching : t.le = .searching x)
    (edge : ∀ e, r.edge = some e → s.Admits e.offset) :
    s.Confined (t.withLe (.searching { x with records := x.records.set k (some r) })) := by
  refine h.withLe fun y o same held => ?_
  cases same
  rcases held.of_set with old | ⟨e, own, rfl⟩
  · exact h.edges x o searching old
  · exact edge e own

theorem State.Confined.updateRecord {s t : State} (h : s.Confined t) {x : Search} {k : Lane} {r : SearchRecord}
    (searching : t.le = .searching x) (edge : ∀ e, r.edge = some e → s.Admits e.offset) : s.Confined (updateRecord x k r t) := by
  unfold Machine.updateRecord
  dsimp only
  exact .ite (h.setRecord searching edge) (h.trans (endSearch_confined _ _ _ t))

/-- An edge that the examination of a line finds was taken under the line's offset (R84). -/
theorem examine_edge {threshold : Nat} {stamp : Line} {offset : Nat} {v : Option Byte} {r : SearchRecord} {e : Edge}
    (h : (examine threshold stamp offset v r).edge = some e) : r.edge = some e ∨ e.offset = offset := by
  unfold examine at h
  split at h
  · exact .inl h
  · split at h
    · exact .inl h
    · split at h
      · cases h
        exact .inr rfl
      · exact .inl h

theorem State.Confined.levelLine {s t : State} (h : s.Confined t) (k : Lane) (stamp : Line) {offset : Nat} (samples : Option (List Byte))
    (held : s.Admits offset) : s.Confined (levelLine k stamp offset samples t) := by
  unfold Machine.levelLine
  split
  · exact h
  · exact h
  next x searching =>
    split
    · exact h
    next r record =>
      split
      · extract_lets v r'
        have edge : ∀ e, r'.edge = some e → s.Admits e.offset := by
          intro e own
          rcases examine_edge own with old | rfl
          · exact h.edges x _ searching ⟨k, r, e, record, old, rfl⟩
          · exact held
        exact .ite (h.updateRecord searching edge) (h.setRecord searching edge)
      · exact h

theorem levelLeavesRun_confined (k : Lane) (s : State) : s.Confined (levelLeavesRun k s) := by
  unfold levelLeavesRun
  split
  · exact .refl s
  · exact .refl s
  next x searching =>
    split
    · exact .refl s
    next r record =>
      exact .ite ((State.Confined.refl s).updateRecord searching fun e own => .edge searching ⟨k, r, e, record, own, rfl⟩) (.refl s)

theorem levelSpan_confined (w : Line) (s : State) : s.Confined (levelSpan w s) := by
  unfold levelSpan
  split
  · exact .refl s
  · exact .refl s
  · exact .ite (endSearch_confined _ _ _ s) (.refl s)

/-! ### Line events (3.6, 3.7) -/

/-- The Correction Block replaced by one whose staging pointer is within its bound. -/
theorem withCb_confined {s : State} {cb : CorrectionBlock} (pointer : cb.pointer ≤ max s.cb.pointer 255) : s.Confined (s.withCb cb) where
  lanes := fun _ => .refl _
  edges := fun _ _ searching held => .edge searching held
  ports := fun _ => .refl _
  pointer := pointer
  markers := Nat.le_max_left _ _

theorem completeCommit_confined (k : Lane) (s : State) : s.Confined (completeCommit k s) := by
  unfold completeCommit
  split
  · exact .refl s
  · exact .ite (.trans (withCb_confined (by exact Nat.le_max_left _ _)) (raiseWhere_confined _ _ _)) (.refl s)

theorem countLane_confined (k : Lane) (f : LaneCounters → LaneCounters) (s : State) : s.Confined (countLane k f s) :=
  .updateLane (.of_eq rfl rfl rfl rfl rfl rfl rfl)

/-- Of the bounded numbers a placement changes the width and column base alone, to those of the pending item (R52). -/
theorem lanePlaced_confined (stamp rn : Line) (b : LineBody) (l : LaneFrontEnd) : l.Confined (lanePlaced stamp rn b l) := by
  unfold lanePlaced
  extract_lets stamped placed
  refine .trans (x := placed) ?_ (.of_eq rfl rfl rfl rfl rfl rfl rfl)
  unfold placed
  split
  · exact .of_eq rfl rfl rfl rfl rfl rfl rfl
  · split
    · exact .of_eq rfl rfl rfl rfl rfl rfl rfl
    next item pending =>
      exact ⟨.inForce, fun _ h => .pending h, fun _ h => .recorded h, .pending pending, nofun, Nat.le_max_left _ _⟩

theorem State.Confined.runLine {s t : State} (h : s.Confined t) (k : Lane) (w : Line) {offset : Nat} (b : LineBody)
    (held : s.Admits offset) : s.Confined (runLine k w offset b t) := by
  unfold Machine.runLine
  extract_lets stamp early
  split
  · exact h.trans (countLane_confined _ _ _)
  · split
    · exact h.trans (countLane_confined _ _ _)
    · refine .levelLine (.trans (h.trans (.updateLane (lanePlaced_confined _ _ _ _))) (place_confined _ _)) _ _ _ held

theorem applyImmediate_confined (l : LaneFrontEnd) : l.Confined (applyImmediate l) := by
  unfold applyImmediate
  split
  · exact .refl l
  · exact .of_eq rfl rfl rfl rfl rfl rfl rfl

theorem checkLine_confined (k : Lane) (w : Line) (b : LineBody) (s : State) : s.Confined (checkLine k w b s) :=
  .updateLane (by split <;> exact .of_eq rfl rfl rfl rfl rfl rfl rfl)

theorem State.Confined.lineEvent {s t : State} (h : s.Confined t) (k : Lane) (w : Line) {offset : Nat} (mode : ActiveMode) (b : LineBody)
    (held : s.Admits offset) : s.Confined (lineEvent k w offset mode b t) := by
  have begun := (h.trans (completeCommit_confined k t)).trans (.updateLane (k := k) (applyImmediate_confined _))
  unfold Machine.lineEvent
  dsimp only
  split
  · exact begun.runLine k w b held
  · exact begun.trans (checkLine_confined k w b _)

/-! ### The trigger FIFO (R50, R51, R54) -/

theorem removeOldest_confined (k : Lane) (b : LineBody) (s : State) : s.Confined (removeOldest k b s) := by
  unfold removeOldest
  split
  · exact .refl s
  next e rest fifo =>
    have taken : s.Confined (updateLane k (fun l => { l with fifo := rest, drain := l.drain - 1 }) s) :=
      .updateLane (.of_sublist rfl rfl rfl rfl rfl (by rw [fifo]; exact List.sublist_cons_self e rest)
        ((Nat.sub_le _ 1).trans (Nat.le_max_right _ _)))
    have held : s.Admits e.offset := .lane k (.recorded (by rw [fifo]; exact List.mem_cons_self))
    have event := taken.lineEvent k e.wln e.mode b held
    exact .ite (event.trans (sealBand_confined _ _ _)) event

theorem loseOldest_confined (k : Lane) (s : State) : s.Confined (loseOldest k s) :=
  (removeOldest_confined k _ s).trans (countLane_confined _ _ _)

theorem flushCounted_confined (k : Lane) (n : Nat) : ∀ s : State, s.Confined (flushCounted k n s) := by
  induction n with
  | zero => exact .refl
  | succ n ih => exact fun s => (loseOldest_confined k s).trans (ih _)

theorem flushMissing_confined (k : Lane) (n : Nat) : ∀ s : State, s.Confined (flushMissing k n s) := by
  induction n with
  | zero => exact .refl
  | succ n ih => exact fun s => (removeOldest_confined k _ s).trans (ih _)

/-! ### Items at a repeat-start trigger (R48 to R51) -/

theorem changeState_confined (k : Lane) (new : LaneState) (s : State) : s.Confined (changeState k new s) := by
  unfold changeState
  extract_lets old a b c
  have first : s.Confined a := .updateLane (.of_eq rfl rfl rfl rfl rfl rfl rfl)
  have second : s.Confined b := .ite (first.trans (raiseWhere_confined _ _ _)) first
  have third : s.Confined c := .ite (second.trans (completeCommit_confined k b)) second
  exact .ite (third.trans (levelLeavesRun_confined k c)) third

/-- A drain begins with the FIFO's depth (R50). -/
theorem modeChanged_confined (old new : Option ActiveMode) (l : LaneFrontEnd) : l.Confined (modeChanged old new l) := by
  refine .of_sublist rfl rfl rfl rfl rfl (List.Sublist.refl _) ?_
  unfold modeChanged
  dsimp only
  split
  · exact Nat.le_max_left _ _
  · exact Nat.le_max_right _ _

theorem modeActions_confined (k : Lane) (old new : Option ActiveMode) (s : State) : s.Confined (modeActions k old new s) := by
  have changed : s.Confined (updateLane k (modeChanged old new) s) := .updateLane (modeChanged_confined old new _)
  rw [modeActions_eq]
  exact .ite (changed.trans (sealBand_confined _ _ _)) changed

theorem sourceActions_confined (k : Lane) (new : Source) (s : State) : s.Confined (sourceActions k new s) := by
  have ended : ∀ l : LaneFrontEnd, l.Confined { l with drain := 0, source := new } := fun l =>
    .of_sublist rfl rfl rfl rfl rfl (List.Sublist.refl _) (Nat.zero_le _)
  exact .ite (.refl s) (((flushCounted_confined k _ s).trans (.updateLane (ended _))).trans (sealBand_confined _ _ _))

theorem applyModeItem_confined (k : Lane) (m : LaneMode) (src : Source) (s : State) : s.Confined (applyModeItem k m src s) := by
  have taken : s.Confined (updateLane k (fun l => { l with pendingMode := none }) s) := .updateLane (.of_eq rfl rfl rfl rfl rfl rfl rfl)
  exact ((taken.trans (changeState_confined k _ _)).trans (modeActions_confined _ _ _ _)).trans (sourceActions_confined _ _ _)

theorem applyOffset_confined (l : LaneFrontEnd) : l.Confined (applyOffset l) := by
  unfold applyOffset
  split
  · exact .refl l
  next o pending => exact ⟨.pending pending, nofun, fun _ h => .recorded h, .inForce, fun _ h => .pending h, Nat.le_max_left _ _⟩

theorem applyRepeatStart_confined (k : Lane) (s : State) : s.Confined (applyRepeatStart k s) := by
  have offset : s.Confined (updateLane k applyOffset s) := .updateLane (applyOffset_confined _)
  unfold applyRepeatStart
  dsimp only
  split
  · exact offset
  · exact offset.trans (applyModeItem_confined _ _ _ _)

/-! ### Triggers and links -/

theorem handleTrigger_confined (k : Lane) (w : Line) (s : State) : s.Confined (handleTrigger k w s) := by
  have held : s.Admits (s.lane k).offset := .lane k .inForce
  cases state : (s.lane k).state with
  | off => rw [handleTrigger, state]; exact .refl s
  | fault m => rw [handleTrigger, state]; exact (State.Confined.refl s).lineEvent k w m _ held
  | active m =>
    by_cases camera : (s.lane k).source = .camera
    · rw [handleTrigger_camera w state camera]
      set u := if 4 ≤ (s.lane k).fifo.length then loseOldest k s else s with hu
      have lost : s.Confined u := .ite (loseOldest_confined k s) (.refl s)
      have room : (u.lane k).fifo.length < max (s.lane k).fifo.length Config.fifoCapacity := by
        rw [hu]
        split
        next full =>
          obtain ⟨e, rest, fifo⟩ := List.exists_cons_of_length_pos (l := (s.lane k).fifo) (by omega)
          rw [(loseOldest_lost fifo).fifo, List.length_drop]
          omega
        next below => exact (Nat.not_le.mp below).trans_le (Nat.le_max_right _ _)
      exact lost.setLane ((lost.lanes k).append (lost.lanes k).offset room)
    · rw [handleTrigger_test w state camera]
      exact (State.Confined.refl s).lineEvent k w m _ held

theorem triggerLanes_confined (w : Line) (mark : Bool) (s : State) : s.Confined (triggerLanes w mark s) :=
  .foldl (f := takeTrigger w mark)
    (fun s k => .trans (.ite (applyRepeatStart_confined k s) (.refl s)) (handleTrigger_confined k w _)) allLanes s

theorem arriveLine_confined (k : Lane) (frame : LineFrame) (s : State) : s.Confined (arriveLine k frame s) := by
  unfold arriveLine
  refine .ite ?_ (.refl s)
  split
  · exact .refl s
  · exact .ite (countLane_confined _ _ _) (removeOldest_confined _ _ _)
  · exact (countLane_confined _ _ _).trans (removeOldest_confined _ _ _)

theorem loseLaneLink_confined (k : Lane) (s : State) : s.Confined (loseLaneLink k s) := by
  have faulted : ∀ s, State.Confined s (faultLane k s) := by
    intro s
    unfold faultLane
    split
    · exact changeState_confined _ _ _
    · exact .refl s
    · exact .refl s
  have unlinked : s.Confined (updateLane k LaneFrontEnd.unlinked s) := .updateLane (.of_eq rfl rfl rfl rfl rfl rfl rfl)
  exact .ite ((unlinked.trans (faulted _)).trans (flushMissing_confined k _ _)) (.refl s)

theorem returnLaneLink_confined (k : Lane) (s : State) : s.Confined (returnLaneLink k s) := by
  have linked : s.Confined (updateLane k (fun l => { l with linkUp := true }) s) := .updateLane (.of_eq rfl rfl rfl rfl rfl rfl rfl)
  unfold returnLaneLink
  dsimp only
  split
  · exact linked.trans (changeState_confined _ _ _)
  · exact linked
  · exact linked

/-! ### Encoder counts -/

/-- The Marker Unit replaced by one whose queue is within its bound. -/
theorem withMku_confined {s : State} {m : MarkerUnit} (room : m.queue.length ≤ max s.mku.queue.length Config.markerCapacity) :
    s.Confined (s.withMku m) where
  lanes := fun _ => .refl _
  edges := fun _ _ searching held => .edge searching held
  ports := fun _ => .refl _
  pointer := Nat.le_max_left _ _
  markers := room

/-- A due line takes entries out of the marker queue, and none joins it (R157). -/
theorem markerDueLine_confined (w : Line) (s : State) : s.Confined (markerDueLine w s) := by
  have fired : ∀ s e, State.Confined s (fireEntry s e) := fun s e =>
    .trans (withMku_confined (by exact Nat.le_max_left _ _)) (raiseWhere_confined _ _ _)
  exact (withMku_confined ((List.length_filter_le _ _).trans (Nat.le_max_left _ _))).trans (.foldl fired _ _)

theorem dueLine_confined (s : State) : s.Confined (dueLine s) := by
  have gated : ∀ w (s : State), s.Confined (gateDueLine w s) := by
    intro w s
    unfold gateDueLine
    split
    · exact (withMu_confined s _).trans (triggerLanes_confined _ _ _)
    · exact (withMu_confined s _).trans (raiseWhere_confined _ _ _)
  rw [dueLine_eq]
  set w := s.mu.wln + 1
  have counted : s.Confined (countDueLine s) := .of_raises (countDueLine_agree s) (countDueLine_raises s) (by decide)
  have numbered : (countDueLine s).Confined (repeatDueLine w (countDueLine s)) :=
    .of_raises (A := [.ru, .ports]) (repeatDueLine_agree w _ (by decide) (by decide)) (repeatDueLine_raises w _) (by decide)
  have marked : ∀ s, State.Confined s (markRepeatStart w s) := fun s => .of_agree (markRepeatStart_agree w s) (by decide)
  exact ((((counted.trans numbered).trans (marked _)).trans (markerDueLine_confined w _)).trans (levelSpan_confined w _)).trans (gated w _)

theorem overrunIndication_confined (s : State) : s.Confined (overrunIndication s) :=
  .of_raises (A := [.ru, .ports]) (overrunIndication_agree s (by decide) (by decide)) (overrunIndication_raises s) (by decide)

theorem encoderChange_confined (inputs : EncInputs) (s : State) : s.Confined (encoderChange inputs s) := by
  have moved : s.Confined (s.withMu { s.mu with reference := inputs }) := withMu_confined s _
  have forward : ∀ s, State.Confined s (forwardCount s) := fun s =>
    .ite ((withMu_confined s _).trans (.ite (withMu_confined _ _) (dueLine_confined _))) (withMu_confined s _)
  have reverse : ∀ s, State.Confined s (reverseCount s) := fun s =>
    .ite (withMu_confined s _) ((withMu_confined s _).trans (.ite (withMu_confined _ _)
      (((withMu_confined _ _).trans (raiseWhere_confined _ _ _)).trans (overrunIndication_confined _))))
  unfold encoderChange
  exact .ite moved (.ite (moved.trans ((withMu_confined _ _).trans (raiseWhere_confined _ _ _)))
    (.ite (moved.trans (forward _)) (moved.trans (reverse _))))

end Sys2Proof.Machine
end

section
/-!
SUPPORT. The bounded numbers under every command: the actions of the requests, the answers and the request queue, the resets, the timers
and the links.
-/

namespace Sys2Proof.Machine

/-! ### The actions of the requests -/

/-- The action of a request, whatever its frame and the state it finds, takes no number beyond its bound. -/
def ActsConfined (act : RequestFrame → State → State × Answer) : Prop := ∀ f (s : State), s.Confined (act f s).1

section Guards

variable {act : RequestFrame → State → State × Answer}

theorem asHolder_confined (p : Port) (h : ActsConfined act) : ActsConfined (asHolder p act) := by
  intro f s
  unfold asHolder
  split
  · exact h f s
  · exact .refl s

theorem unlessCommit_confined (h : ActsConfined act) : ActsConfined (unlessCommit act) := by
  intro f s
  unfold unlessCommit
  split
  · exact .refl s
  · exact h f s

theorem unlessSearching_confined (h : ActsConfined act) : ActsConfined (unlessSearching act) := by
  intro f s
  unfold unlessSearching
  split
  · exact .refl s
  · exact h f s

theorem ifLive_confined (p : Port) (h : ActsConfined act) : ActsConfined (ifLive p act) := by
  intro f s
  unfold ifLive
  split
  · exact h f s
  · exact .refl s

end Guards

theorem withFields_confined {α : Type} {read : List Byte → Option α} {act : α → State → State × Answer}
    (h : ∀ x (s : State), s.Confined (act x s).1) : ActsConfined (withFields read act) := by
  intro f s
  unfold withFields
  split
  · exact .refl s
  · exact h _ s

theorem inform_confined {α : Type} {read : List Byte → Option α} (answer : α → State → Answer) :
    ActsConfined (withFields read fun x => inform (answer x)) := withFields_confined fun _ s => .refl s

theorem setMotion_confined (r : MotionSettings) (s : State) : s.Confined (setMotion r s).1 := by
  unfold setMotion
  split
  · exact withMu_confined s _
  · exact .refl s

theorem repeatRestart_confined (x : Unit) (s : State) : s.Confined (repeatRestart x s).1 :=
  .trans (.of_agree (A := [.ru]) (agree_withRu s _ (by decide)) (by decide))
    (.of_raises (A := [.ru, .ports]) (goLock_agree _ _ (by decide) (by decide)) (goLock_raises _ _) (by decide))

theorem setRepeat_confined (r : RepeatSettings) (s : State) : s.Confined (setRepeat r s).1 := by
  unfold setRepeat
  split
  · exact .of_agree (A := [.ru]) (agree_withRu s _ (by decide)) (by decide)
  · exact .refl s

/-- The items of a SET_LANE record in range (R46, R47). -/
theorem withItems_confined {f : LaneFields} (inRange : f.inRange = true) (l : LaneFrontEnd) : l.Confined (l.withItems f) := by
  simp only [LaneFields.inRange, decide_eq_true_eq] at inRange
  obtain ⟨least, most, whole, _, sum, offset, _, _⟩ := inRange
  refine ⟨.inForce, fun o h => ?_, fun _ h => .recorded h, .inForce, fun item h => ?_, Nat.le_max_left _ _⟩
  · cases h
    exact .inRange offset
  · cases h
    exact .inRange ⟨least, most, whole, sum⟩

theorem setLane_confined (f : LaneFields) (s : State) : s.Confined (setLane f s).1 := by
  unfold setLane
  split
  · exact .refl s
  · split
    next inRange => exact .updateLane (f := fun l => l.withItems f) (withItems_confined inRange _)
    · exact .refl s

theorem pageClear_confined (x : Unit) (s : State) : s.Confined (pageClear x s).1 := withCb_confined (Nat.zero_le _)

theorem pageSeek_confined (e : Nat) (s : State) : s.Confined (pageSeek e s).1 := by
  unfold pageSeek
  split
  next inRange => exact withCb_confined (inRange.trans (Nat.le_max_right _ _))
  · exact .refl s

/-- The staging pointer stops at entry 255 (R76). -/
theorem fillEntry_pointer (cb : CorrectionBlock) (c : Correction) : (fillEntry cb c).pointer ≤ max cb.pointer 255 := by
  unfold fillEntry
  dsimp only
  split
  next below => exact (Nat.succ_le_of_lt below).trans (Nat.le_max_right _ _)
  · exact Nat.le_max_left _ _

theorem fillEntries_pointer (es : List Correction) :
    ∀ (cb : CorrectionBlock) (marked : Bool), (fillEntries es cb marked).1.pointer ≤ max cb.pointer 255 := by
  induction es with
  | nil => exact fun cb marked => Nat.le_max_left _ _
  | cons c es ih => exact fun cb marked => (ih _ _).trans (max_le (fillEntry_pointer cb c) (Nat.le_max_right _ _))

theorem pageFill_confined (es : List Correction) (s : State) : s.Confined (pageFill es s).1 := by
  unfold pageFill
  split
  · exact withCb_confined (fillEntries_pointer es s.cb false)
  · exact .refl s

theorem pageCommit_confined (p : Port) (x : Nat × Nat) (s : State) : s.Confined (pageCommit p x s).1 := by
  unfold pageCommit
  split
  · exact .refl s
  next k _ =>
    split
    · have pends : s.Confined (s.withCb { s.cb with commit := some { lane := k, page := x.2, port := p } }) :=
        withCb_confined (Nat.le_max_left _ _)
      dsimp only
      split
      · exact pends
      · exact pends.trans (completeCommit_confined k _)
      · exact pends.trans (completeCommit_confined k _)
    · exact .refl s

/-- A search starts without edges (R83). -/
theorem startSearch_hasEdge {p : Port} {reference : Lane} {f : LevelFields} {s : State} {o : Nat} :
    ¬(startSearch p reference f s).HasEdge o := by
  rintro ⟨k, r, e, record, edge, -⟩
  rw [show (startSearch p reference f s).records.get k = _ from PerLane.get_map _ _ k] at record
  split at record
  · cases record
  · cases record
    cases edge

theorem levelStart_confined (p : Port) (f : LevelFields) (s : State) : s.Confined (levelStart p f s).1 := by
  unfold levelStart
  split
  · exact .refl s
  · split
    · refine .ite ((State.Confined.refl s).withLe fun x o same held => ?_) (endSearch_confined _ _ _ s)
      cases same
      exact absurd held startSearch_hasEdge
    · exact .refl s

theorem levelAbort_confined (x : Unit) (s : State) : s.Confined (levelAbort x s).1 := by
  unfold levelAbort
  split
  · exact endSearch_confined _ _ _ s
  · exact .refl s
  · exact .refl s

theorem setStore_confined (f : StoreFields) (s : State) : s.Confined (setStore f s).1 := by
  unfold setStore
  split
  · have stored : s.Confined ((s.withShared { s.shared with stallTimeout := f.stallTimeout, standby := f.standby }).withBsc
        { s.bsc with reserve := f.reserve }) := (withShared_confined s _).trans (withBsc_confined _ _)
    exact .ite (stored.trans (judgePressure_confined _)) stored
  · exact .refl s

theorem windowOpen_confined (p : Port) (f : WindowFields) (s : State) : s.Confined (windowOpen p f s).1 := by
  unfold windowOpen
  split
  · split
    · exact .refl s
    · exact withWindows_confined s _
  · exact .refl s

theorem windowClose_confined (p : Port) (id : Nat) (s : State) : s.Confined (windowClose p id s).1 := by
  unfold windowClose
  split
  · exact .refl s
  · exact closeWindow_confined id s

theorem windowReturn_confined (p : Port) (id : Nat) (s : State) : s.Confined (windowReturn p id s).1 := by
  unfold windowReturn
  split
  · exact .refl s
  · split
    · exact withWindows_confined s _
    · exact .refl s

/-- A grant takes the credit to at most 64 (R133). -/
theorem grantCredit_confined (p : Port) (n : Nat) (s : State) : s.Confined (grantCredit p n s).1 := by
  unfold grantCredit
  split
  · refine .setPort ⟨fun cls => ?_, (Nat.min_le_left _ _).trans (Nat.le_max_right _ _), Nat.le_refl _, Nat.le_refl _⟩
    cases cls <;> exact Nat.le_max_left _ _
  · exact .refl s

theorem takeClaim_confined (p : Port) (x : Unit) (s : State) : s.Confined (takeClaim p x s).1 := by
  unfold takeClaim
  split
  · exact (withShared_confined s _).trans (raiseWhere_confined _ _ _)
  · split <;> exact .refl s

theorem releaseClaim_confined (p : Port) (x : Unit) (s : State) : s.Confined (releaseClaim p x s).1 := by
  unfold releaseClaim
  split
  · exact (withShared_confined s _).trans (raiseWhere_confined _ _ _)
  · exact .refl s

theorem setNotices_confined (p : Port) (x : Bool × List NoticeKind) (s : State) : s.Confined (setNotices p x s).1 := by
  unfold setNotices
  split
  · exact .setPort (.of_eq rfl rfl rfl rfl rfl)
  · exact .refl s

theorem takeStatus_confined (p : Port) (x : Unit) (s : State) : s.Confined (takeStatus p x s).1 := .setPort (.of_eq rfl rfl rfl rfl rfl)

theorem beginRestart_confined (p : Port) (x : Unit) (s : State) : s.Confined (beginRestart p x s).1 := withShared_confined s _

theorem insertMarker_length (e : MarkerEntry) (q : List MarkerEntry) : (insertMarker e q).length = q.length + 1 := by
  have whole := congrArg List.length (List.takeWhile_append_dropWhile (p := fun x : MarkerEntry => atOrBefore x.target e.target) (l := q))
  rw [List.length_append] at whole
  rw [insertMarker, List.length_append, List.length_cons]
  omega

/-- An entry joins the marker queue only where that has room (R156). -/
theorem placeMarker_confined (p : Port) (o : Output) (t : Line) (width : Nat) (s : State) : s.Confined (placeMarker p o t width s).1 := by
  unfold placeMarker
  dsimp only
  split
  · exact withMku_confined (by simp [mergeMarker])
  · split
    next room =>
      refine withMku_confined ?_
      rw [insertMarker_length]
      exact (Nat.succ_le_of_lt room).trans (Nat.le_max_right _ _)
    · exact .refl s

theorem markOut_confined (p : Port) (f : MarkFields) (s : State) : s.Confined (markOut p f s).1 := by
  have guarded : ∀ (c : Prop) [Decidable c] (code : ResponseCode) (r : State × Answer), s.Confined r.1 →
      s.Confined (if c then refuse code s else r).1 := by
    intro c _ code r h
    split
    · exact .refl s
    · exact h
  unfold markOut
  split
  · split
    · exact .refl s
    · exact guarded _ _ _ (guarded _ _ _ (guarded _ _ _ (placeMarker_confined _ _ _ _ s)))
  · exact .refl s

theorem setMarkerOut_confined (f : MarkerFields) (s : State) : s.Confined (setMarkerOut f s).1 := by
  unfold setMarkerOut
  split
  · exact withMku_confined (Nat.le_max_left _ _)
  · exact .refl s

/-! ### Answers and the request queue -/

/-- What a step keeps of the capacities and of the lanes' ranges, whatever it does. -/
def KeepsBounds (s t : State) : Prop := (CapacityOk s → CapacityOk t) ∧ (LanesOk s → LanesOk t)

theorem State.Confined.keeps {s t : State} (h : s.Confined t) : KeepsBounds s t := ⟨fun ok => ok.confined h, fun ok => ok.confined h⟩

theorem KeepsBounds.trans {s t u : State} (h : KeepsBounds s t) (g : KeepsBounds t u) : KeepsBounds s u := ⟨g.1 ∘ h.1, g.2 ∘ h.2⟩

/-- A port's lists and credit are within their bounds. -/
structure ConsumerPort.InBounds (c : ConsumerPort) : Prop where
  queues : ∀ cls, (c.queue cls).length ≤ Config.queueCapacity
  credit : c.credit ≤ Config.creditMax
  requests : c.requests.length ≤ Config.requestCapacity
  responses : c.responses.length ≤ Config.responseCapacity

theorem CapacityOk.port {s : State} (h : CapacityOk s) (p : Port) : (s.port p).InBounds :=
  ⟨h.queues p, h.credit p, h.requests p, h.responses p⟩

theorem CapacityOk.setPort {s : State} (h : CapacityOk s) {p : Port} {c : ConsumerPort} (bounds : c.InBounds) :
    CapacityOk (s.setPort p c) := by
  have ports : ∀ q, ((s.setPort p c).port q).InBounds := by
    intro q
    rw [State.port_setPort]
    split
    · exact bounds
    · exact h.port q
  exact ⟨h.fifo, h.drain, h.pointer, fun q => (ports q).queues, fun q => (ports q).credit, fun q => (ports q).requests,
    fun q => (ports q).responses, h.markers⟩

/-- The ranges of the lanes speak of the lanes and the search alone. -/
theorem LanesOk.setPort {s : State} (h : LanesOk s) (p : Port) (c : ConsumerPort) : LanesOk (s.setPort p c) :=
  ⟨h.width, h.pendingWidth, h.offset, h.pendingOffset, h.fifo, h.edges⟩

theorem setPort_keeps {s : State} {p : Port} {c : ConsumerPort} (bounds : (s.port p).InBounds → c.InBounds) :
    KeepsBounds s (s.setPort p c) := ⟨fun h => h.setPort (bounds (h.port p)), fun h => h.setPort p c⟩

theorem respond_keeps {s : State} {p : Port} (f : RequestFrame) (a : Answer) (room : (s.port p).responses.length < Config.responseCapacity) :
    KeepsBounds s (respond p f a s) := by
  refine setPort_keeps fun h => ⟨fun cls => ?_, h.credit, h.requests, ?_⟩
  · cases cls
    · exact h.queues .essential
    · exact h.queues .sheddable
  · rw [List.length_append, List.length_singleton]
    exact room

/-- A request is taken only where fewer than 8 responses wait, so its answer has room (R164). -/
theorem takeRequest_keeps {p : Port} {kind : Option RequestKind} {act : RequestFrame → State → State × Answer} {s t : State}
    (acts : ActsConfined act) (e : takeRequest p kind act s = .next t) : KeepsBounds s t := by
  unfold takeRequest at e
  split at e
  · cases e; exact (State.Confined.refl s).keeps
  next f rest head =>
    split at e
    next taken =>
      cases e
      have takes := taken.2
      simp only [State.takesRequests, Bool.and_eq_true, decide_eq_true_eq] at takes
      have left : s.Confined (s.setPort p { s.port p with requests := rest }) :=
        .setPort (.of_le (Nat.le_refl _) (Nat.le_refl _) (Nat.le_refl _) (by rw [head]; exact Nat.le_succ _) (Nat.le_refl _))
      have acted := left.trans (acts f _)
      have room := ((acted.ports p).responses.trans_lt takes.1.2).trans_le (by decide : Config.takeLimit ≤ Config.responseCapacity)
      exact (acted.keeps.trans (respond_keeps f _ room)).trans (settle_confined _).keeps
    · cases e; exact (State.Confined.refl s).keeps

theorem countRequestError_confined (p : Port) (s : State) : s.Confined (countRequestError p s) := .setPort (.of_eq rfl rfl rfl rfl rfl)

/-- A frame joins the request queue below 8, is answered below 16 responses, and is discarded otherwise (R164). -/
theorem acceptFrame_keeps (p : Port) (f : RequestFrame) (s : State) : KeepsBounds s (acceptFrame p f s) := by
  unfold acceptFrame
  extract_lets c
  split
  next room =>
    refine setPort_keeps fun h => ⟨fun cls => ?_, h.credit, ?_, h.responses⟩
    · cases cls
      · exact h.queues .essential
      · exact h.queues .sheddable
    · rw [List.length_append, List.length_singleton]
      exact room
  · split
    next room => exact respond_keeps f _ room
    · exact (countRequestError_confined p s).keeps

theorem execRequestArrival_keeps {p : Port} {bytes : List Byte} {s t : State} (e : execRequestArrival p bytes s = .next t) :
    KeepsBounds s t := by
  unfold execRequestArrival at e
  split at e
  · split at e
    · cases e; exact ((countRequestError_confined p s).trans (settle_confined _)).keeps
    · cases e; exact (acceptFrame_keeps p _ s).trans (settle_confined _).keeps
  · cases e; exact (State.Confined.refl s).keeps

/-! ### Mark edges -/

theorem markTransition_raises (edge : MarkDirection) (s : State) : OnlyRaises s (markTransition edge s) := by
  have judged : OnlyRaises s (markJudge s) := onlyRaises_ite (goLock_raises _ _) (.of_ports rfl)
  unfold markTransition
  refine onlyRaises_ite ?_ (.refl s)
  split
  · exact .refl s
  · exact onlyRaises_ite (goLock_raises _ _) (.of_ports rfl)
  · exact judged
  · exact judged

theorem markTransition_confined (edge : MarkDirection) (s : State) : s.Confined (markTransition edge s) :=
  .of_raises (A := [.ru, .ports]) (markTransition_agree edge s (by decide) (by decide)) (markTransition_raises edge s) (by decide)

/-! ### Resets, timers and links -/

/-- Both resets: every lane at its power-on record, no search, every port empty, the staging page and the marker queue empty. -/
theorem confined_of_reset {s t : State} (lanes : ∀ k, t.lane k = LaneFrontEnd.initial k (s.lane k).linkUp) (le : t.le = .idle)
    (ports : ∀ p, ∃ state up, t.port p = ConsumerPort.initial state up) (pointer : t.cb.pointer = 0) (markers : t.mku.queue = []) :
    s.Confined t where
  lanes := fun k => by rw [lanes k]; exact .initial k _
  edges := fun x o searching _ => by rw [le] at searching; cases searching
  ports := fun p => by
    obtain ⟨state, up, e⟩ := ports p
    rw [e]
    exact .initial state up
  pointer := by rw [pointer]; exact Nat.zero_le _
  markers := by rw [markers]; exact Nat.zero_le _

theorem powerOnReset_confined (inputs : EncInputs) (s : State) : s.Confined (powerOnReset inputs s) :=
  confined_of_reset (fun k => PerLane.get_map _ _ k) rfl (fun p => ⟨_, _, PerPort.get_map _ _ p⟩) rfl rfl

theorem restartReset_confined (s : State) : s.Confined (restartReset s) :=
  confined_of_reset (fun k => PerLane.get_map _ _ k) rfl (fun p => ⟨_, _, PerPort.get_map _ _ p⟩) rfl rfl

theorem clockAt_confined (s : State) (due : Nat) : s.Confined (s.clockAt due) :=
  .of_agree (A := [.now]) (agree_withNow s _ (by decide)) (by decide)

theorem execGateReopen_confined {s t : State} (e : execGateReopen s = .next t) : s.Confined t := by
  unfold execGateReopen at e
  split at e
  · cases e; exact .refl s
  · cases e; exact (clockAt_confined s _).trans (withMu_confined _ _)

theorem execStopTimerExpiry_confined {s t : State} (e : execStopTimerExpiry s = .next t) : s.Confined t := by
  unfold execStopTimerExpiry at e
  split at e
  · cases e; exact .refl s
  · cases e
    exact ((((clockAt_confined s _).trans (withMu_confined _ _)).trans (stopSeal_confined _)).trans (raiseWhere_confined _ _ _)).trans
      (settle_confined _)

theorem execSteeringLinkUp_confined {p : Port} {s t : State} (e : execSteeringLinkUp p s = .next t) : s.Confined t := by
  unfold execSteeringLinkUp at e
  dsimp only at e
  split at e
  · cases e
    exact .setPort ((ConsumerPort.Confined.initial .live true).trans (.of_eq rfl rfl rfl rfl rfl))
  · cases e; exact .refl s
  · cases e; exact .refl s

theorem execFrameCompletion_confined {p : Port} {s t : State} (e : execFrameCompletion p s = .next t) : s.Confined t := by
  have idle : s.Confined (s.setPort p { s.port p with outbound := none }) := .setPort (.of_eq rfl rfl rfl rfl rfl)
  have sent := idle.trans (settle_confined _)
  unfold execFrameCompletion at e
  split at e
  · split at e
    · cases e; exact restartReset_confined s
    · cases e; exact sent
  · cases e; exact sent
  · cases e; exact .refl s
  · cases e; exact .refl s

theorem execStripCompletion_confined {p : Port} {s t : State} (e : execStripCompletion p s = .next t) : s.Confined t := by
  have idle : s.Confined (s.setPort p { s.port p with outbound := none }) := .setPort (.of_eq rfl rfl rfl rfl rfl)
  unfold execStripCompletion at e
  split at e
  · cases e
    exact ((idle.trans (releaseSlot_confined _ _)).trans (closingStripEnd_confined _ _)).trans (settle_confined _)
  all_goals cases e; exact .refl s

theorem execStallTimerExpiry_confined {p : Port} {s t : State} (e : execStallTimerExpiry p s = .next t) : s.Confined t := by
  unfold execStallTimerExpiry at e
  split at e
  next due _ _ =>
    cases e
    have stalled : (s.clockAt due).Confined ((s.clockAt due).setPort p { s.port p with state := .stalled, stall := none }) := by
      refine .setPort ?_
      show (s.port p).Confined _
      exact .of_eq rfl rfl rfl rfl rfl
    exact ((((clockAt_confined s due).trans stalled).trans (raiseWhere_confined _ _ _)).trans (failPort_confined p false _)).trans
      (settle_confined _)
  · cases e; exact .refl s

theorem dropClaim_confined (p : Port) (s : State) : s.Confined (dropClaim p s) :=
  .ite ((withShared_confined s _).trans (raiseWhere_confined _ _ _)) (.refl s)

theorem execSteeringLinkLoss_confined {p : Port} {s t : State} (e : execSteeringLinkLoss p s = .next t) : s.Confined t := by
  have unlinked : s.Confined (s.setPort p { s.port p with linkUp := false }) := .setPort (.of_eq rfl rfl rfl rfl rfl)
  have down : ∀ u : State, u.Confined (u.setPort p (downPort (u.port p))) := fun u =>
    .setPort (.of_le (Nat.le_refl _) (Nat.le_refl _) (Nat.zero_le _) (Nat.zero_le _) (Nat.zero_le _))
  have lost := (((cutLink_confined p s).trans (failPort_confined p true _)).trans (down _)).trans
    ((dropClaim_confined p _).trans (settle_confined _))
  unfold execSteeringLinkLoss at e
  split at e
  · cases e; exact .refl s
  all_goals
    split at e
    · cases e; exact unlinked.trans (restartReset_confined _)
    · cases e; exact lost

theorem execPulseEnd_confined {o : Output} {s t : State} (e : execPulseEnd o s = .next t) : s.Confined t := by
  unfold execPulseEnd at e
  dsimp only at e
  split at e
  · cases e; exact .refl s
  · cases e
    exact (clockAt_confined s _).trans (withMku_confined (Nat.le_max_left _ _))

/-! ### Every command -/

/-- An event with the end of the event. -/
theorem keeps_of_settle {s u t : State} (h : s.Confined u) (e : (Host.Outcome.next (settle u) : Host.Outcome State Fault Refusal) = .next t) :
    KeepsBounds s t := by
  cases e
  exact (h.trans (settle_confined u)).keeps

/-- Every command keeps the capacities and the lanes' ranges. -/
theorem exec_keepsBounds {c : Instr} {s t : State} (e : exec c s = .next t) : KeepsBounds s t := by
  cases c with
  | powerOn inputs => cases e; exact (powerOnReset_confined inputs s).keeps
  | encoderCount inputs => exact keeps_of_settle (encoderChange_confined inputs s) e
  | gateReopen => exact (execGateReopen_confined e).keeps
  | stopTimerExpiry => exact (execStopTimerExpiry_confined e).keeps
  | speedGateEnd => cases e; exact ((clockAt_confined s _).trans (withMu_confined _ _)).keeps
  | setMotion p => exact takeRequest_keeps (asHolder_confined p (withFields_confined setMotion_confined)) e
  | chainExpiry => cases e; exact (State.Confined.of_agree (A := [.ru]) (chainExpiry_agree _ s (by decide)) (by decide)).keeps
  | markEdge edge => exact keeps_of_settle (markTransition_confined edge s) e
  | repeatRestart p => exact takeRequest_keeps (asHolder_confined p (withFields_confined repeatRestart_confined)) e
  | setRepeat p => exact takeRequest_keeps (asHolder_confined p (withFields_confined setRepeat_confined)) e
  | snapshot p => exact takeRequest_keeps (inform_confined _) e
  | log p => exact takeRequest_keeps (inform_confined _) e
  | setLane p => exact takeRequest_keeps (asHolder_confined p (withFields_confined setLane_confined)) e
  | lineArrival k frame => exact keeps_of_settle (arriveLine_confined k frame s) e
  | laneLinkLoss k => exact keeps_of_settle (loseLaneLink_confined k s) e
  | laneLinkReturn k => exact keeps_of_settle (returnLaneLink_confined k s) e
  | laneInfo p => exact takeRequest_keeps (inform_confined _) e
  | pageClear p => exact takeRequest_keeps (asHolder_confined p (unlessCommit_confined (withFields_confined pageClear_confined))) e
  | pageSeek p => exact takeRequest_keeps (asHolder_confined p (unlessCommit_confined (withFields_confined pageSeek_confined))) e
  | pageFill p => exact takeRequest_keeps (asHolder_confined p (unlessCommit_confined (withFields_confined pageFill_confined))) e
  | pageCommit p => exact takeRequest_keeps (asHolder_confined p (unlessCommit_confined (withFields_confined (pageCommit_confined p)))) e
  | tableRead p => exact takeRequest_keeps (inform_confined _) e
  | levelStart p => exact takeRequest_keeps (asHolder_confined p (unlessSearching_confined (withFields_confined (levelStart_confined p)))) e
  | spanEnd => exact keeps_of_settle (levelSpan_confined _ s) e
  | levelAbort p => exact takeRequest_keeps (asHolder_confined p (withFields_confined levelAbort_confined)) e
  | levelResults p => exact takeRequest_keeps (inform_confined _) e
  | setStore p => exact takeRequest_keeps (asHolder_confined p (withFields_confined setStore_confined)) e
  | windowOpen p => exact takeRequest_keeps (ifLive_confined p (withFields_confined (windowOpen_confined p))) e
  | windowClose p => exact takeRequest_keeps (withFields_confined (windowClose_confined p)) e
  | windowReturn p => exact takeRequest_keeps (withFields_confined (windowReturn_confined p)) e
  | windowInfo p => exact takeRequest_keeps (inform_confined _) e
  | steeringLinkUp p => exact (execSteeringLinkUp_confined e).keeps
  | grant p => exact takeRequest_keeps (withFields_confined (grantCredit_confined p)) e
  | frameCompletion p => exact (execFrameCompletion_confined e).keeps
  | stripCompletion p => exact (execStripCompletion_confined e).keeps
  | stallTimerExpiry p => exact (execStallTimerExpiry_confined e).keeps
  | steeringLinkLoss p => exact (execSteeringLinkLoss_confined e).keeps
  | requestArrival p bytes => exact execRequestArrival_keeps e
  | badKind p => exact takeRequest_keeps (act := fun _ => refuse .badKind) (fun _ s => .refl s) e
  | claim p => exact takeRequest_keeps (withFields_confined (takeClaim_confined p)) e
  | release p => exact takeRequest_keeps (withFields_confined (releaseClaim_confined p)) e
  | notices p => exact takeRequest_keeps (withFields_confined (setNotices_confined p)) e
  | status p => exact takeRequest_keeps (withFields_confined (takeStatus_confined p)) e
  | restart p => exact takeRequest_keeps (asHolder_confined p (withFields_confined (beginRestart_confined p))) e
  | markOut p => exact takeRequest_keeps (ifLive_confined p (withFields_confined (markOut_confined p))) e
  | setMarkerOut p => exact takeRequest_keeps (asHolder_confined p (withFields_confined setMarkerOut_confined)) e
  | pulseEnd o => exact (execPulseEnd_confined e).keeps

theorem step_keepsBounds {s t : State} (e : step s = .next t) : KeepsBounds s t := by
  unfold step at e
  split at e
  · cases e; exact (State.Confined.of_agree (A := [.now]) (agree_withNow s _ (by decide)) (by decide)).keeps
  next c rest _ =>
    have shifted : s.Confined (s.withPending rest) := .of_agree (A := [.pending]) (agree_withPending s rest (by decide)) (by decide)
    exact shifted.keeps.trans (exec_keepsBounds e)

end Sys2Proof.Machine
end

section
/-!
SUPPORT. The marker queue (R152): the order of the targets by their distance from the web line number, under a due line and under the
placing of a marker.
-/

namespace Sys2Proof.Machine

/-! ### Distances of lines (0.7) -/

/-- The difference of two lines that both lie ahead of a third is the difference of their distances from it. -/
theorem lineDiff_of_ahead {a b w : Line} (ha : 0 < lineDiff a w) (hb : 0 < lineDiff b w) : lineDiff a b = lineDiff a w - lineDiff b w := by
  have split : a - b = (a - w) - (b - w) := by abel
  unfold lineDiff at ha hb ⊢
  rw [split, BitVec.toInt_sub]
  generalize a - w = x at *
  generalize b - w = y at *
  have := BitVec.two_mul_toInt_lt (x := x)
  have := BitVec.two_mul_toInt_lt (x := y)
  exact Int.bmod_eq_of_le (by omega) (by omega)

/-- A line that lies ahead and is not the next one lies ahead of the next one too, one line nearer. -/
theorem lineDiff_next {t w : Line} (ahead : 0 < lineDiff t w) (ne : t ≠ w + 1) :
    0 < lineDiff t (w + 1) ∧ lineDiff t (w + 1) = lineDiff t w - 1 := by
  have nearer : lineDiff t (w + 1) = lineDiff t w - 1 := by
    have one : lineDiff (w + 1) w = 1 := by
      have : w + 1 - w = 1 := by abel
      rw [lineDiff, this]
      rfl
    rw [lineDiff_of_ahead ahead (by rw [one]; exact one_pos), one]
  have notNext : lineDiff t w ≠ 1 := by
    intro next
    refine ne ?_
    have : t - w = 1 := BitVec.eq_of_toInt_eq next
    rw [← this]
    abel
  omega

/-! ### What keeps the queue in order -/

/-- The marker queue's order speaks of the queue and the web line number alone. -/
theorem MarkersOk.congr {s t : State} (h : MarkersOk s) (queue : t.mku.queue = s.mku.queue) (wln : t.mu.wln = s.mu.wln) : MarkersOk t where
  ahead := by rw [queue, wln]; exact h.ahead
  ordered := by rw [queue, wln]; exact h.ordered
  once := by rw [queue]; exact h.once
  fields := by rw [queue]; exact h.fields

theorem markersOk_of_empty {s : State} (queue : s.mku.queue = []) : MarkersOk s where
  ahead := by rw [queue]; exact nofun
  ordered := by rw [queue]; exact .nil
  once := by rw [queue]; exact .nil
  fields := by rw [queue]; exact nofun

theorem foldl_fireEntry_queue (es : List MarkerEntry) : ∀ s : State, (es.foldl fireEntry s).mku.queue = s.mku.queue := by
  induction es with
  | nil => exact fun _ => rfl
  | cons e es ih => exact fun s => ih (fireEntry s e)

/-- A due line takes the entries whose target it is out of the queue (R157). -/
theorem markerDueLine_queue (w : Line) (s : State) :
    (markerDueLine w s).mku.queue = s.mku.queue.filter fun e => decide (e.target ≠ w) := foldl_fireEntry_queue _ _

theorem dueLine_queue (s : State) : (dueLine s).mku.queue = s.mku.queue.filter fun e => decide (e.target ≠ s.mu.wln + 1) := by
  rw [dueLine_eq, (gateDueLine_after _ _).1.mku (by decide), (afterGate_agree _).mku (by decide), (afterReceivers_spec s).mku,
    markerDueLine_queue]

/-- A due line brings every target one line nearer, and takes out those it reaches (R157). -/
theorem MarkersOk.dueLine {s : State} (h : MarkersOk s) : MarkersOk (dueLine s) := by
  have wln : (Machine.dueLine s).mu.wln = s.mu.wln + 1 := by rw [dueLine_mu]
  have queue := dueLine_queue s
  have kept : ∀ e ∈ (Machine.dueLine s).mku.queue, e ∈ s.mku.queue ∧ e.target ≠ s.mu.wln + 1 := fun e mem => by
    simpa [queue] using mem
  have nearer := fun e mem => lineDiff_next (h.ahead e (kept e mem).1) (kept e mem).2
  have sub : (Machine.dueLine s).mku.queue.Sublist s.mku.queue := by rw [queue]; exact List.filter_sublist
  constructor
  case ahead =>
    intro e mem
    rw [wln]
    exact (nearer e mem).1
  case ordered =>
    rw [wln]
    refine (h.ordered.sublist sub).imp_of_mem fun ha hb le => ?_
    rw [(nearer _ ha).2, (nearer _ hb).2]
    omega
  case once => exact h.once.sublist sub
  case fields => exact fun e mem => h.fields e (kept e mem).1

/-! ### Encoder counts -/

theorem MarkersOk.forwardCount {s : State} (h : MarkersOk s) : MarkersOk (forwardCount s) := by
  have stepped : MarkersOk (s.withMu { s.mu with acc := s.mu.acc + s.mu.settings.n - s.mu.settings.d }) := h.congr rfl rfl
  unfold Machine.forwardCount
  dsimp only
  split
  · unfold lineStep
    split
    · exact stepped.congr rfl rfl
    · exact stepped.dueLine
  · exact h.congr rfl rfl

theorem MarkersOk.reverseCount {s : State} (h : MarkersOk s) : MarkersOk (reverseCount s) := by
  have overrun : ∀ s, (overrunIndication s).mku = s.mku := fun s =>
    (overrunIndication_agree (A := [.ru, .ports]) s (by decide) (by decide)).mku (by decide)
  unfold Machine.reverseCount
  split
  · exact h.congr rfl rfl
  · unfold reverseStep
    split
    · exact h.congr rfl rfl
    · exact h.congr (by rw [overrun]; rfl) (by rw [overrunIndication_mu]; rfl)

theorem MarkersOk.encoderChange {s : State} (inputs : EncInputs) (h : MarkersOk s) : MarkersOk (encoderChange inputs s) := by
  have moved : MarkersOk (s.withMu { s.mu with reference := inputs }) := h.congr rfl rfl
  unfold Machine.encoderChange
  dsimp only
  split
  · exact moved
  · split
    · exact h.congr rfl rfl
    · split
      · exact moved.forwardCount
      · exact moved.reverseCount

/-! ### A marker placed (R156) -/

/-- A relation that holds along the queue holds along it with an entry inserted, if the new entry bears it to the entries around it. -/
theorem insertMarker_pairwise {R : MarkerEntry → MarkerEntry → Prop} {e : MarkerEntry} {q : List MarkerEntry} (h : q.Pairwise R)
    (before : ∀ x ∈ q, atOrBefore x.target e.target = true → R x e)
    (after : ∀ x ∈ q.dropWhile fun x => atOrBefore x.target e.target, R e x) : (insertMarker e q).Pairwise R := by
  set p := fun x : MarkerEntry => atOrBefore x.target e.target
  rw [← List.takeWhile_append_dropWhile (p := p) (l := q), List.pairwise_append] at h
  obtain ⟨taken, dropped, across⟩ := h
  rw [insertMarker, List.pairwise_append, List.pairwise_cons]
  refine ⟨taken, ⟨after, dropped⟩, fun x hx y hy => ?_⟩
  rcases List.mem_cons.mp hy with rfl | old
  · exact before x ((List.takeWhile_sublist p).subset hx) (List.mem_takeWhile_imp (p := p) hx)
  · exact across x hx y old

/-- In an ordered list, what is left after the elements at or below a bound lies above it. -/
theorem lt_of_mem_dropWhile {α : Type} {d : α → Int} {c : Int} {p : α → Bool} {q : List α}
    (ordered : q.Pairwise fun a b => d a ≤ d b)
    (below : ∀ x ∈ q, p x = true ↔ d x ≤ c) : ∀ x ∈ q.dropWhile p, c < d x := by
  induction q with
  | nil => exact nofun
  | cons a q ih =>
    obtain ⟨first, rest⟩ := List.pairwise_cons.mp ordered
    intro x mem
    rw [List.dropWhile_cons] at mem
    split at mem
    · exact ih rest (fun y hy => below y (List.mem_cons_of_mem a hy)) x mem
    next no =>
      have above : c < d a := not_le.mp fun le => no ((below a List.mem_cons_self).mpr le)
      rcases List.mem_cons.mp mem with rfl | later
      · exact above
      · exact above.trans_le (first x later)

theorem mem_insertMarker {e x : MarkerEntry} {q : List MarkerEntry} (h : x ∈ insertMarker e q) : x = e ∨ x ∈ q := by
  rw [insertMarker, List.mem_append, List.mem_cons] at h
  rcases h with before | new | after
  · exact .inr ((List.takeWhile_sublist _).subset before)
  · exact .inl new
  · exact .inr ((List.dropWhile_sublist _).subset after)

/-- A new entry with a target ahead keeps the queue in order (R156). -/
theorem MarkersOk.insert {s : State} (h : MarkersOk s) {e : MarkerEntry} (ahead : 0 < lineDiff e.target s.mu.wln)
    (fresh : ∀ x ∈ s.mku.queue, ¬(x.output = e.output ∧ x.target = e.target))
    (fields : 1 ≤ e.width ∧ e.width ≤ 65535 ∧ ∃ p, e.requesters.get p = true) :
    MarkersOk (s.withMku { s.mku with queue := insertMarker e s.mku.queue }) := by
  have nearer : ∀ x ∈ s.mku.queue, atOrBefore x.target e.target = true ↔ lineDiff x.target s.mu.wln ≤ lineDiff e.target s.mu.wln := by
    intro x mem
    rw [atOrBefore, decide_eq_true_eq, lineDiff_of_ahead (h.ahead x mem) ahead]
    omega
  constructor
  case ahead =>
    intro x mem
    rcases mem_insertMarker mem with rfl | old
    · exact ahead
    · exact h.ahead x old
  case ordered =>
    refine insertMarker_pairwise h.ordered (fun x mem le => (nearer x mem).mp le) fun x mem => ?_
    exact (lt_of_mem_dropWhile (d := fun x : MarkerEntry => lineDiff x.target s.mu.wln) h.ordered nearer x mem).le
  case once =>
    refine insertMarker_pairwise h.once (fun x mem _ => fresh x mem) fun x mem same => ?_
    exact fresh x ((List.dropWhile_sublist _).subset mem) ⟨same.1.symm, same.2.symm⟩
  case fields =>
    intro x mem
    rcases mem_insertMarker mem with rfl | old
    · exact fields
    · exact h.fields x old

/-- What a merge does to one entry (R156). -/
def MarkerEntry.merged (e : MarkerEntry) (o : Output) (t : Line) (width : Nat) (p : Port) : MarkerEntry :=
  if e.isFor o t then { e with width := max e.width width, requesters := e.requesters.set p true } else e

theorem MarkerEntry.merged_key (e : MarkerEntry) (o : Output) (t : Line) (width : Nat) (p : Port) :
    (e.merged o t width p).output = e.output ∧ (e.merged o t width p).target = e.target := by
  unfold MarkerEntry.merged
  split <;> exact ⟨rfl, rfl⟩

/-- A merge keeps the queue in order: no entry's output or target changes (R156). -/
theorem MarkersOk.merge {s : State} (h : MarkersOk s) (o : Output) (t : Line) {width : Nat} (p : Port)
    (range : 1 ≤ width ∧ width ≤ 65535) : MarkersOk (s.withMku { s.mku with queue := mergeMarker o t width p s.mku.queue }) := by
  have mem : ∀ x ∈ mergeMarker o t width p s.mku.queue, ∃ e ∈ s.mku.queue, x = e.merged o t width p := fun x mem => by
    obtain ⟨e, old, rfl⟩ := List.mem_map.mp mem
    exact ⟨e, old, rfl⟩
  have pairwise : ∀ {R : MarkerEntry → MarkerEntry → Prop},
      (s.mku.queue.Pairwise fun a b => R (a.merged o t width p) (b.merged o t width p)) →
      (mergeMarker o t width p s.mku.queue).Pairwise R := fun h => List.pairwise_map.mpr h
  have target := fun e : MarkerEntry => (e.merged_key o t width p).2
  have output := fun e : MarkerEntry => (e.merged_key o t width p).1
  constructor
  case ahead =>
    intro x hx
    obtain ⟨e, old, rfl⟩ := mem x hx
    rw [target]
    exact h.ahead e old
  case ordered => exact pairwise (by simp only [target]; exact h.ordered)
  case once => exact pairwise (by simp only [target, output]; exact h.once)
  case fields =>
    intro x hx
    obtain ⟨e, old, rfl⟩ := mem x hx
    obtain ⟨least, most, requester⟩ := h.fields e old
    unfold MarkerEntry.merged
    split
    · exact ⟨least.trans (Nat.le_max_left _ _), max_le most range.2, p, PerPort.get_set_self _ _ _⟩
    · exact ⟨least, most, requester⟩

theorem MarkersOk.placeMarker {s : State} (h : MarkersOk s) (p : Port) (o : Output) {t : Line} {width : Nat}
    (ahead : 0 < lineDiff t s.mu.wln) (range : 1 ≤ width ∧ width ≤ 65535) : MarkersOk (placeMarker p o t width s).1 := by
  unfold Machine.placeMarker
  dsimp only
  split
  · exact h.merge o t p range
  next none =>
    split
    · refine h.insert ahead (fun x mem same => none ?_) ⟨range.1, range.2, p, PerPort.get_set_self _ _ _⟩
      refine List.any_eq_true.mpr ⟨x, mem, ?_⟩
      simpa [MarkerEntry.isFor] using same
    · exact h

/-- A marker is placed only with a width in range and a target that is not too late (R153 to R156). -/
theorem MarkersOk.markOut {s : State} (h : MarkersOk s) (p : Port) (f : MarkFields) : MarkersOk (markOut p f s).1 := by
  unfold Machine.markOut
  split
  next inRange =>
    simp only [MarkFields.inRange, decide_eq_true_eq] at inRange
    split
    · exact h
    · split
      · exact h
      · extract_lets beyond target
        split
        · exact h
        · split
          · exact h
          next ahead => exact h.placeMarker p _ (not_le.mp ahead) ⟨inRange.1, inRange.2.1⟩
  · exact h

/-! ### Every command -/

/-- The taking of a request keeps the marker queue in order if its action does. -/
theorem MarkersOk.takeRequest {s t : State} {p : Port} {kind : Option RequestKind} {act : RequestFrame → State → State × Answer}
    (keeps : ∀ f s, MarkersOk s → MarkersOk (act f s).1) (h : MarkersOk s) (e : takeRequest p kind act s = .next t) : MarkersOk t := by
  unfold Machine.takeRequest at e
  split at e
  · cases e; exact h
  · split at e
    next f rest _ _ =>
      cases e
      have acted := keeps f (s.setPort p { s.port p with requests := rest }) (h.congr rfl rfl)
      exact acted.congr (by rw [settle_mku]; rfl) (by rw [settle_mu]; rfl)
    · cases e; exact h

theorem MarkersOk.execFrameCompletion {s t : State} {p : Port} (h : MarkersOk s) (e : execFrameCompletion p s = .next t) : MarkersOk t := by
  have sent : MarkersOk (settle (s.setPort p { s.port p with outbound := none })) :=
    h.congr (by rw [settle_mku]; rfl) (by rw [settle_mu]; rfl)
  unfold Machine.execFrameCompletion at e
  split at e
  · split at e
    · cases e; exact markersOk_of_empty rfl
    · cases e; exact sent
  · cases e; exact sent
  · cases e; exact h
  · cases e; exact h

theorem MarkersOk.execSteeringLinkLoss {s t : State} {p : Port} (h : MarkersOk s) (e : execSteeringLinkLoss p s = .next t) :
    MarkersOk t := by
  have cut := (cutLink_agree p s).trans (failPort_agree p true _)
  set failed := failPort p true (cutLink p s)
  have dropped := dropClaim_agree p (failed.setPort p (downPort (failed.port p)))
  have lost : MarkersOk (settle (dropClaim p (failed.setPort p (downPort (failed.port p))))) := by
    refine h.congr ?_ ?_
    · rw [settle_mku, dropped.mku (by decide), State.setPort_mku, cut.mku (by decide)]
    · rw [settle_mu, dropped.mu (by decide), State.setPort_mu, cut.mu (by decide)]
  unfold Machine.execSteeringLinkLoss at e
  split at e
  · cases e; exact h
  all_goals
    split at e
    · cases e; exact markersOk_of_empty rfl
    · cases e; exact lost

theorem MarkersOk.execStopTimerExpiry {s t : State} (h : MarkersOk s) (e : execStopTimerExpiry s = .next t) : MarkersOk t := by
  unfold Machine.execStopTimerExpiry at e
  split at e
  · cases e; exact h
  next due _ =>
    cases e
    set stopped := (s.clockAt due).withMu { s.mu with motion := .stopped, stopTimer := none }
    have agree := stopSeal_agree stopped
    refine h.congr ?_ ?_
    · rw [settle_mku]
      exact congrArg MarkerUnit.queue (agree.mku (by decide))
    · rw [settle_mu]
      exact (congrArg MotionUnit.wln (agree.mu (by decide)) : (stopSeal stopped).mu.wln = stopped.mu.wln)

/-- Every command keeps the marker queue in order: one whose frame spares the Motion Unit and the Marker Unit leaves it as it is. -/
theorem MarkersOk.exec {c : Instr} {s t : State} (h : MarkersOk s) (e : exec c s = .next t) : MarkersOk t := by
  by_cases spared : Part.mu ∉ touched c ∧ Part.mku ∉ touched c
  · obtain ⟨u, hu, agree⟩ := commandFrames c s
    rw [hu] at e
    cases e
    exact h.congr (by rw [agree.mku spared.2]) (by rw [agree.mu spared.1])
  · cases c with
    | powerOn inputs => cases e; exact markersOk_of_empty rfl
    | encoderCount inputs => cases e; exact (h.encoderChange inputs).congr (by rw [settle_mku]) (by rw [settle_mu])
    | gateReopen =>
      change execGateReopen s = _ at e
      unfold execGateReopen at e
      split at e
      · cases e; exact h
      · cases e; exact h.congr rfl rfl
    | stopTimerExpiry => exact h.execStopTimerExpiry e
    | speedGateEnd => cases e; exact h.congr rfl rfl
    | setMotion p =>
      refine h.takeRequest (fun f s h => ?_) e
      unfold asHolder withFields setMotion
      split
      · split
        · exact h
        · split <;> exact h.congr rfl rfl
      · exact h
    | frameCompletion p => exact h.execFrameCompletion e
    | steeringLinkLoss p => exact h.execSteeringLinkLoss e
    | markOut p =>
      refine h.takeRequest (fun f s h => ?_) e
      unfold ifLive withFields
      split
      · split
        · exact h
        · exact h.markOut p _
      · exact h
    | setMarkerOut p =>
      refine h.takeRequest (fun f s h => ?_) e
      unfold asHolder withFields setMarkerOut
      split
      · split
        · exact h
        · split <;> exact h.congr rfl rfl
      · exact h
    | pulseEnd o =>
      change execPulseEnd o s = _ at e
      unfold execPulseEnd at e
      dsimp only at e
      split at e
      · cases e; exact h
      · cases e; exact h.congr rfl rfl
    | _ => exact absurd (by simp [touched, lineParts, deliveryParts]) spared

theorem MarkersOk.step {s t : State} (h : MarkersOk s) (e : step s = .next t) : MarkersOk t := by
  unfold Machine.step at e
  split at e
  · cases e; exact h.congr rfl rfl
  next c rest _ => exact (h.congr (t := s.withPending rest) rfl rfl).exec e

/-- Settles O8: no operation takes a bounded number beyond its bound, and each keeps the marker queue in order. -/
theorem stepKeepsCapacities : Obligations.StepKeepsCapacities := by
  unfold Obligations.StepKeepsCapacities
  intro s t e
  obtain ⟨capacity, lanes⟩ := step_keepsBounds e
  exact ⟨capacity, fun h => h.step e, lanes⟩

end Sys2Proof.Machine
end

section
/-!
SUPPORT. SET_LANE (R46, R47) and the lines from a lane link (R50 to R64): the pairing with the oldest entry, a line event in RUN and in
CHECK, and the events that leave nothing to settle.
-/

namespace Sys2Proof.Machine

/-! ### SET_LANE -/

/-- A SET_LANE record is read back from its field bytes (11.3). -/
theorem readLane_fields {f : LaneFields} (h : (Request.setLane f).fits) : readLane (Request.setLane f).fields = some f := by
  obtain ⟨lane, width, base, offset, fill, flat⟩ := h
  obtain ⟨bools, _, modes, sources, _⟩ := codes_lt
  have read : readLane (Request.setLane f).fields =
      match modeOfCode (BitVec.ofNat 8 (codeOfMode f.mode)).toNat, sourceOfCode (BitVec.ofNat 8 (codeOfSource f.source)).toNat,
        boolOfCode (BitVec.ofNat 8 (codeOfBool f.correction)).toNat with
      | some mode, some source, some correction => some {
          lane := (BitVec.ofNat 8 f.lane).toNat, mode := mode, source := source, width := leValue (leBytes 2 f.width)
          base := leValue (leBytes 2 f.base), offset := leValue (leBytes 2 f.offset), fill := (BitVec.ofNat 8 f.fill).toNat
          flat := leValue (leBytes 2 f.flat), correction := correction }
      | _, _, _ => none := rfl
  rw [read, byte_toNat (modes f.mode), byte_toNat (sources f.source), byte_toNat (bools f.correction), modeOfCode_codeOfMode,
    sourceOfCode_codeOfSource, boolOfCode_codeOfBool, byte_toNat lane, byte_toNat fill, leValue_leBytes width, leValue_leBytes base,
    leValue_leBytes offset, leValue_leBytes flat]

/-- Settles O31: the record is read back from its field bytes, and the request is refused or taken as a whole. -/
theorem setLaneTaken : Obligations.SetLaneTaken := by
  unfold Obligations.SetLaneTaken
  intro s p tag rest f settled taken fits holder
  set t := requestLeft p rest s
  have kind : ((Request.setLane f).frame tag).requestKind = some .setLane := Request.frame_kind _ tag
  have read : asHolder p (withFields readLane setLane) ((Request.setLane f).frame tag) t = setLane f t := by
    rw [asHolder_holder (by exact holder), withFields_read (readLane_fields fits)]
  show takeRequest p (some .setLane) (asHolder p (withFields readLane setLane)) s = _
  cases lane : laneOfNumber f.lane with
  | none =>
    have does : setLane f t = (t, { code := .range }) := by rw [setLane, lane]; rfl
    exact takeRequest_answered settled taken kind (read.trans does)
  | some k =>
    dsimp only
    split
    next inRange =>
      have does : setLane f t = (updateLane k (fun l => l.withItems f) t, { code := .done }) := by
        rw [setLane, lane]
        exact if_pos (by simpa [LaneFields.inRange] using inRange)
      rw [takeRequest_settled settled taken kind (read.trans does) rfl rfl (State.port_setPort_self _ _ _)
        fun q hq => State.port_setPort_ne _ _ hq]
      exact congrArg (fun u : State => Host.Outcome.next (u.setLane k _)) (State.setPort_setPort s p _ _)
    next outside =>
      have does : setLane f t = (t, { code := .range }) := by
        rw [setLane, lane]
        exact if_neg (by simpa [LaneFields.inRange] using outside)
      exact takeRequest_answered settled taken kind (read.trans does)

/-! ### Lines from the link (R57, R58) -/

theorem settle_setLane {s : State} (h : Settled s) (k : Lane) (l : LaneFrontEnd) : settle (s.setLane k l) = s.setLane k l :=
  settle_settled (h.congr rfl rfl rfl)

theorem removeOldest_empty {k : Lane} {s : State} (empty : (s.lane k).fifo = []) (b : LineBody) : removeOldest k b s = s := by
  rw [removeOldest, empty]

theorem arriveLine_unsolicited {k : Lane} {s : State} (up : (s.lane k).linkUp = true) (empty : (s.lane k).fifo = []) (x : Sample)
    (xs : List Sample) : arriveLine k (.good (x :: xs)) s = countLane k (fun c => { c with unsolicited := c.unsolicited + 1 }) s := by
  rw [arriveLine, if_pos up]
  exact if_pos empty

theorem arriveLine_paired {k : Lane} {s : State} (up : (s.lane k).linkUp = true) (waits : (s.lane k).fifo ≠ []) (x : Sample)
    (xs : List Sample) : arriveLine k (.good (x :: xs)) s = removeOldest k (.camera (x :: xs)) s := by
  rw [arriveLine, if_pos up]
  exact if_neg waits

theorem arriveLine_damaged {k : Lane} {s : State} (up : (s.lane k).linkUp = true) :
    arriveLine k .damaged s = removeOldest k .missing (countLane k (fun c => { c with frameError := c.frameError + 1 }) s) := by
  rw [arriveLine, if_pos up]

/-- Settles O32: neither arrival finds an entry, and a changed count leaves nothing to settle. -/
theorem arrivalOnEmptyFifo : Obligations.ArrivalOnEmptyFifo := by
  unfold Obligations.ArrivalOnEmptyFifo
  intro s k x xs settled up empty
  refine ⟨?_, ?_⟩
  · show Host.Outcome.next (settle (arriveLine k (.good (x :: xs)) s)) = _
    rw [arriveLine_unsolicited up empty]
    exact congrArg _ (settle_setLane settled k _)
  · show Host.Outcome.next (settle (arriveLine k .damaged s)) = _
    rw [arriveLine_damaged up, removeOldest_empty]
    · exact congrArg _ (settle_setLane settled k _)
    · rw [countLane, updateLane_lane_self]
      exact empty

/-- The oldest entry paired: it leaves the FIFO, its line event follows, and a drain that it ends seals (R50, R57). -/
theorem removeOldest_cons {k : Lane} {s : State} {e : FifoEntry} {rest : List FifoEntry} (fifo : (s.lane k).fifo = e :: rest)
    (b : LineBody) :
    let u := lineEvent k e.wln e.offset e.mode b (s.setLane k { s.lane k with fifo := rest, drain := (s.lane k).drain - 1 })
    removeOldest k b s = if (s.lane k).drain = 1 then sealBand k false u else u := by
  rw [removeOldest, fifo]
  rfl

/-- Without a drain the oldest entry's line event is all (R50). -/
theorem removeOldest_undrained {k : Lane} {s : State} {e : FifoEntry} {rest : List FifoEntry} (fifo : (s.lane k).fifo = e :: rest)
    (undrained : (s.lane k).drain = 0) (b : LineBody) :
    removeOldest k b s = lineEvent k e.wln e.offset e.mode b (s.setLane k { s.lane k with fifo := rest }) := by
  have same : (s.lane k).drain - 1 = (s.lane k).drain := by rw [undrained]
  rw [removeOldest_cons fifo, same, if_neg (by rw [undrained]; exact Nat.zero_ne_one)]

/-! ### What a line event begins with (R53, R79) -/

theorem completeCommit_other {k : Lane} {s : State} (other : ∀ c, s.cb.commit = some c → c.lane ≠ k) : completeCommit k s = s := by
  unfold completeCommit
  split
  · rfl
  next c pending => exact if_neg (other c pending)

theorem completeCommit_setLane (k : Lane) (s : State) (l : LaneFrontEnd) :
    completeCommit k (s.setLane k l) = (completeCommit k s).setLane k l := by
  unfold completeCommit
  rw [State.setLane_cb]
  split
  · rfl
  · split <;> rfl

theorem completeCommit_lane (k : Lane) (s : State) (j : Lane) : (completeCommit k s).lane j = s.lane j :=
  State.lane_congr ((completeCommit_agree (A := [.cb, .ports]) k s (by decide) (by decide)).lanes (by decide)) j

theorem applyImmediate_none {l : LaneFrontEnd} (none : l.pendingImmediate = none) : applyImmediate l = l := by
  rw [applyImmediate, none]

/-- The state in which a line event is handled: the commit completed and the immediate item applied (R53, R79). -/
def lineBegun (k : Lane) (s : State) : State := updateLane k applyImmediate (completeCommit k s)

theorem lineEvent_run (k : Lane) (w : Line) (offset : Nat) (b : LineBody) (s : State) :
    lineEvent k w offset .run b s = runLine k w offset b (lineBegun k s) := rfl

theorem lineEvent_check (k : Lane) (w : Line) (offset : Nat) (b : LineBody) (s : State) :
    lineEvent k w offset .check b s = checkLine k w b (lineBegun k s) := rfl

theorem lineBegun_idle {k : Lane} {s : State} (none : (s.lane k).pendingImmediate = none)
    (other : ∀ c, s.cb.commit = some c → c.lane ≠ k) : lineBegun k s = s := by
  rw [lineBegun, completeCommit_other other, updateLane, applyImmediate_none none, State.setLane_self]

/-- A pending immediate item is taken before the line is handled, as if it had been in force (R53). -/
theorem lineBegun_item {k : Lane} {s : State} {item : ImmediateSettings} (pending : (s.lane k).pendingImmediate = some item) :
    lineBegun k s = lineBegun k (s.setLane k { s.lane k with immediate := item, pendingImmediate := none }) := by
  have applied : applyImmediate (s.lane k) = { s.lane k with immediate := item, pendingImmediate := none } := by
    rw [applyImmediate, pending]
  unfold lineBegun updateLane
  rw [completeCommit_setLane, State.lane_setLane_self, State.setLane_setLane, completeCommit_lane, applied]
  rfl

/-! ### A line event in RUN (R52, R59 to R61) -/

/-- The width of a lane for a line of a repeat: the pending one where the repeat differs from the band RN (R52). -/
def LaneFrontEnd.widthFor (l : LaneFrontEnd) (rn : Line) : Nat :=
  if l.bandRn = some rn then l.width else (l.pendingWidth.map (·.1)).getD l.width

/-- The column base of a lane for a line of a repeat (R52). -/
def LaneFrontEnd.baseFor (l : LaneFrontEnd) (rn : Line) : Nat :=
  if l.bandRn = some rn then l.base else (l.pendingWidth.map (·.2)).getD l.base

theorem lanePlaced_eq (stamp rn : Line) (b : LineBody) (l : LaneFrontEnd) : lanePlaced stamp rn b l = { l with
    lastStamp := some stamp, bandRn := some rn, width := l.widthFor rn, base := l.baseFor rn
    pendingWidth := if l.bandRn = some rn then l.pendingWidth else none
    counters := b.judge (l.widthFor rn) l.counters } := by
  unfold lanePlaced LaneFrontEnd.widthFor LaneFrontEnd.baseFor
  by_cases same : l.bandRn = some rn
  · simp [same]
  · cases item : l.pendingWidth <;> simp [same]

/-- A stamp is early where the last stamp is at or after it (R59). -/
theorem runLine_early {k : Lane} {w : Line} {offset : Nat} {s : State} {last : Line} (b : LineBody)
    (stamped : (s.lane k).lastStamp = some last) (early : lineDiff (w - BitVec.ofNat 32 offset) last ≤ 0) :
    runLine k w offset b s = countLane k (fun c => { c with realign := c.realign + 1 }) s := by
  unfold runLine
  rw [stamped]
  exact if_pos (decide_eq_true early)

/-- The stamp of a line comes after the lane's last stamp, if it has one (R59). -/
abbrev LaterThanLast (l : LaneFrontEnd) (stamp : Line) : Prop := ∀ last, l.lastStamp = some last → 0 < lineDiff stamp last

theorem runLine_later {k : Lane} {w : Line} {offset : Nat} {s : State} (b : LineBody)
    (later : LaterThanLast (s.lane k) (w - BitVec.ofNat 32 offset)) :
    runLine k w offset b s = match s.ru.lookup (w - BitVec.ofNat 32 offset) with
      | none => countLane k (fun c => { c with stale := c.stale + 1 }) s
      | some e =>
        let stamp := w - BitVec.ofNat 32 offset
        let s := updateLane k (lanePlaced stamp e.rn b) s
        let l := s.lane k
        let bytes := (b.samples l w).map fun xs => correctLine (s.cb.tables.get k) l.immediate.correction (xs.take l.width)
        levelLine k stamp offset bytes (place {
          lane := k, samples := bytes, stamp := stamp, rn := e.rn, irl := e.irlOf stamp, firstIrl := e.firstIrl, width := l.width
          base := l.base, camera := decide (l.source = .camera) } s) := by
  unfold runLine
  extract_lets stamp early
  have onTime : ¬early = true := by
    unfold early
    split
    · exact Bool.false_ne_true
    next last stamped => exact fun h => absurd (of_decide_eq_true h) (not_le.mpr (later last stamped))
  exact if_neg onTime

theorem runLine_stale {k : Lane} {w : Line} {offset : Nat} {s : State} (b : LineBody)
    (later : LaterThanLast (s.lane k) (w - BitVec.ofNat 32 offset)) (stale : s.ru.lookup (w - BitVec.ofNat 32 offset) = none) :
    runLine k w offset b s = countLane k (fun c => { c with stale := c.stale + 1 }) s := by
  rw [runLine_later b later, stale]

/-- A line placed: the lane's record at the placement, then the Band Store Controller and the Leveling Engine (R60, R61). -/
theorem runLine_placed {k : Lane} {w : Line} {offset : Nat} {s : State} {e : LogEntry} (b : LineBody)
    (later : LaterThanLast (s.lane k) (w - BitVec.ofNat 32 offset)) (found : s.ru.lookup (w - BitVec.ofNat 32 offset) = some e) :
    let stamp := w - BitVec.ofNat 32 offset
    let v := lanePlaced stamp e.rn b (s.lane k)
    let bytes := (b.samples v w).map fun xs => correctLine (s.cb.tables.get k) v.immediate.correction (xs.take v.width)
    runLine k w offset b s = levelLine k stamp offset bytes (place {
      lane := k, samples := bytes, stamp := stamp, rn := e.rn, irl := e.irlOf stamp, firstIrl := e.firstIrl, width := v.width
      base := v.base, camera := decide (v.source = .camera) } (s.setLane k v)) := by
  rw [runLine_later b later, found]
  dsimp only
  rw [updateLane_lane_self]
  rfl

/-! ### A camera line filed (R95, R96) -/

/-- A line placed into the filling band that it fits, within its block: the bytes stored and the record extended (R95, R96). -/
theorem place_extends {x : Placement} {s : State} {slot : Nat} {b : Band} {samples : List Byte}
    (filling : s.bsc.filling.get x.lane = some slot) (band : s.band slot = some b) (fits : x.fits b = true)
    (inside : x.irl ≠ Config.blockLines * b.block + (Config.blockLines - 1)) (captured : x.samples = some samples) :
    place x s = (putBand slot { b with lastIrl := x.irl, presence := b.presence ++ [(x.irl, (samples.take b.width).length)] } s).withDram
      (dramWrite s.dram (sampleAddress slot b.block x.irl) (samples.take b.width)) := by
  rw [place, filling]
  dsimp only
  rw [band]
  dsimp only
  rw [if_pos fits, extendBand, captured]
  exact if_neg inside

theorem correctFrom_length (t : List (Nat × Correction)) (xs : List Sample) : ∀ p, (correctFrom t p xs).length = xs.length := by
  induction xs with
  | nil => exact fun _ => rfl
  | cons x xs ih => exact fun p => congrArg (· + 1) (ih (p + 1))

theorem correctLine_length (t : List (Nat × Correction)) (enable : Bool) (xs : List Sample) :
    (correctLine t enable xs).length = xs.length := by
  unfold correctLine
  split
  · exact correctFrom_length t xs 0
  · exact List.length_map _

theorem levelLine_idle {s : State} (idle : ∀ y, s.le ≠ .searching y) (k : Lane) (stamp : Line) (offset : Nat)
    (samples : Option (List Byte)) : levelLine k stamp offset samples s = s := by
  unfold levelLine
  split
  · rfl
  · rfl
  next x searching => exact absurd searching (idle x)

/-- A settled state stays so where a slot's new record is that of a FILLING band, for which no strip can be begun (R137). -/
theorem Settled.putFilling {s t : State} (h : Settled s) {slot : Nat} {c : Band} (stays : c.sealing = none)
    (ports : t.ports = s.ports) (windows : t.windows = s.windows) (bands : t.bsc.bands = tablePut s.bsc.bands slot c) : Settled t := by
  have same : ∀ e, beginnable t.windows t.bsc.bands e → beginnable s.windows s.bsc.bands e := by
    rintro e ⟨window, d, r, read, sealed⟩
    rw [bands, tableGet_put] at read
    rw [windows] at window
    split at read
    · cases read
      rw [stays] at sealed
      cases sealed
    · exact ⟨window, d, r, read, sealed⟩
  constructor
  · intro p
    rw [arbitrate_eq_self, State.port, ports]
    intro up idle
    obtain ⟨responses, notice, entry⟩ := h.port_restful p up idle
    exact ⟨responses, notice, fun e next live credit begins => entry e next live credit (same e begins)⟩
  · intro p
    rw [State.port, ports]
    exact h.stall p

/-- The judgment of a camera line's length as R60 gives it. -/
theorem judge_camera (width : Nat) (xs : List Sample) (c : LaneCounters) : (LineBody.camera xs).judge width c =
    if width < xs.length then { c with long := c.long + 1 } else if xs.length < width then { c with short := c.short + 1 } else c := rfl

/-- With no item pending, a placement stamps the lane and judges the line alone (R60). -/
theorem lanePlaced_noItem {l : LaneFrontEnd} (none : l.pendingWidth = none) (stamp rn : Line) (b : LineBody) :
    lanePlaced stamp rn b l = { l with lastStamp := some stamp, bandRn := some rn, counters := b.judge l.width l.counters } := by
  rw [lanePlaced_eq]
  unfold LaneFrontEnd.widthFor LaneFrontEnd.baseFor
  simp [none]

/-- A camera line of a lane that has nothing pending, placed into the filling band it fits within its block (R60, R95, R96). -/
theorem runLine_files {s : State} {k : Lane} {w : Line} {offset slot : Nat} {le : LogEntry} {b : Band} (xs : List Sample)
    (noWidth : (s.lane k).pendingWidth = none) (idle : ∀ y, s.le ≠ .searching y)
    (later : LaterThanLast (s.lane k) (w - BitVec.ofNat 32 offset)) (found : s.ru.lookup (w - BitVec.ofNat 32 offset) = some le)
    (filling : s.bsc.filling.get k = some slot) (band : s.band slot = some b) (rn : b.rn = le.rn)
    (block : b.block = le.irlOf (w - BitVec.ofNat 32 offset) / 64) (inside : le.irlOf (w - BitVec.ofNat 32 offset) % 64 ≠ 63)
    (width : b.width = (s.lane k).width) (base : b.base = (s.lane k).base) :
    let irl := le.irlOf (w - BitVec.ofNat 32 offset)
    let kept := xs.take (s.lane k).width
    runLine k w offset (.camera xs) s =
      (putBand slot { b with lastIrl := irl, presence := b.presence ++ [(irl, kept.length)] } (s.setLane k { s.lane k with
        lastStamp := some (w - BitVec.ofNat 32 offset), bandRn := some le.rn
        counters := (LineBody.camera xs).judge (s.lane k).width (s.lane k).counters })).withDram
        (dramWrite s.dram (sampleAddress slot b.block irl) (correctLine (s.cb.tables.get k) (s.lane k).immediate.correction kept)) := by
  intro irl kept
  set bytes := correctLine (s.cb.tables.get k) (s.lane k).immediate.correction kept
  have length : bytes.length = kept.length := correctLine_length _ _ _
  have whole : bytes.take b.width = bytes := List.take_of_length_le (by rw [length, width]; exact List.length_take_le _ xs)
  have within : irl ≠ Config.blockLines * b.block + (Config.blockLines - 1) := by
    show irl ≠ 64 * b.block + 63
    have : b.block = irl / 64 := block
    have : irl % 64 ≠ 63 := inside
    omega
  rw [runLine_placed (.camera xs) later found]
  dsimp only
  rw [lanePlaced_noItem noWidth]
  set v : LaneFrontEnd := { s.lane k with
    lastStamp := some (w - BitVec.ofNat 32 offset), bandRn := some le.rn
    counters := (LineBody.camera xs).judge (s.lane k).width (s.lane k).counters }
  have stored := place_extends (s := s.setLane k v) (x := {
    lane := k, samples := some bytes, stamp := w - BitVec.ofNat 32 offset, rn := le.rn, irl := irl, firstIrl := le.firstIrl
    width := v.width, base := v.base, camera := decide (v.source = .camera) }) filling band
    (by simp [Placement.fits, Placement.block, Config.blockLines, rn, block, width, base, v, irl]) within rfl
  rw [whole, length] at stored
  rw [levelLine_idle]
  · exact stored
  · exact fun y => (congrArg State.le stored).trans_ne (idle y)

/-- Settles O33: the equations of the arrival, of the pairing and of a line event in RUN, and for the line filed all of them in turn. -/
theorem cameraLineFiled : Obligations.CameraLineFiled := by
  unfold Obligations.CameraLineFiled
  refine ⟨?_, ?_, ?_, ?_, ?_⟩
  · intro s k x xs e rest le slot b settled up fifo run undrained noItem noWidth noCommit idle stamp later found irl filling band fills rn
      block inside width base kept bytes counters
    set u := s.setLane k { s.lane k with fifo := rest }
    have own : u.lane k = { s.lane k with fifo := rest } := State.lane_setLane_self _ _ _
    have begun : lineBegun k u = u := lineBegun_idle (by rw [own]; exact noItem) fun c pending => by
      rw [State.setLane_cb, noCommit] at pending
      cases pending
    have does : arriveLine k (.good (x :: xs)) s = runLine k e.wln e.offset (.camera (x :: xs)) u := by
      rw [arriveLine_paired up (fifo ▸ List.cons_ne_nil _ _), removeOldest_undrained fifo undrained, run, lineEvent_run, begun]
    have filed := runLine_files (s := u) (slot := slot) (b := b) (x :: xs) (by rw [own]; exact noWidth) idle
      (by rw [own]; exact later) found filling band rn block inside (by rw [own]; exact width) (by rw [own]; exact base)
    refine congrArg Host.Outcome.next ((congrArg settle (does.trans filed)).trans ((settle_settled ?rests).trans ?_))
    case rests =>
      exact settled.putFilling (slot := slot) (c := { b with
        lastIrl := irl, presence := b.presence ++ [(irl, ((x :: xs).take (u.lane k).width).length)] }) fills rfl rfl rfl
    rw [own, State.setLane_setLane]
    simp only [kept, bytes, counters, width]
    rfl
  · intro s k x xs up waits
    exact ⟨congrArg (fun t => Host.Outcome.next (settle t)) (arriveLine_paired up waits x xs),
      congrArg (fun t => Host.Outcome.next (settle t)) (arriveLine_damaged up)⟩
  · intro s k body e rest fifo u
    refine ⟨fun drained => ?_, fun undrained => ?_⟩
    · rw [removeOldest_cons fifo, if_pos drained]
    · rw [removeOldest_cons fifo, if_neg undrained]
  · intro s k w offset mode body item pending
    cases mode with
    | run => rw [lineEvent_run, lineEvent_run, lineBegun_item pending]
    | check => rw [lineEvent_check, lineEvent_check, lineBegun_item pending]
  · intro s k w offset body noItem other l stamp
    rw [lineEvent_run, lineBegun_idle noItem other]
    refine ⟨fun last stamped early => ?_, fun later => ⟨fun stale => ?_, ?_⟩⟩
    · exact runLine_early body stamped early
    · exact runLine_stale body later stale
    · intro le found width base v bytes
      have placed : lanePlaced stamp le.rn body l = v := by
        rw [lanePlaced_eq]
        cases body <;> rfl
      rw [runLine_placed body later found]
      rw [show lanePlaced (w - BitVec.ofNat 32 offset) le.rn body (s.lane k) = v from placed]
      rfl

end Sys2Proof.Machine
end

section
/-!
SUPPORT. The pattern checker (R62 to R64): the mismatches of a line, and a line event in CHECK.
-/

namespace Sys2Proof.Machine

/-- The positions of a width at which a line is not the pattern of a base counted from position `p` (R62). -/
abbrev differing (base : Sample) (p width : Nat) (xs : List Sample) : List Nat :=
  (List.range width).filter fun q => xs[q]? ≠ some (BitVec.ofNat 12 (p + q) + base)

theorem differing_succ (base : Sample) (p n : Nat) (x : Sample) (xs : List Sample) :
    (differing base p (n + 1) (x :: xs)).length =
      (if x = BitVec.ofNat 12 p + base then 0 else 1) + (differing base (p + 1) n xs).length := by
  have tail : ((List.range n).map Nat.succ).filter (fun q => decide ((x :: xs)[q]? ≠ some (BitVec.ofNat 12 (p + q) + base))) =
      (differing base (p + 1) n xs).map Nat.succ := by
    rw [List.filter_map]
    refine congrArg (List.map Nat.succ) (List.filter_congr fun q _ => ?_)
    simp [Nat.add_right_comm p 1 q, Nat.add_assoc]
  rw [differing, List.range_succ_eq_map, List.filter_cons, tail]
  by_cases same : x = BitVec.ofNat 12 p + base
  · simp [same]
  · simp [same, Nat.add_comm 1]

theorem differing_nil (base : Sample) (p n : Nat) : (differing base p n []).length = n := by
  simp [differing]

theorem mismatchesFrom_eq (base : Sample) (n : Nat) : ∀ (p : Nat) (xs : List Sample),
    mismatchesFrom base p (xs.take n) + (n - xs.length) = (differing base p n xs).length := by
  induction n with
  | zero =>
    intro p xs
    rw [List.take_zero, mismatchesFrom, Nat.zero_sub]
    rfl
  | succ n ih =>
    intro p xs
    cases xs with
    | nil => rw [differing_nil, List.take_nil, mismatchesFrom, List.length_nil, Nat.zero_add, Nat.sub_zero]
    | cons x xs =>
      rw [differing_succ, ← ih, List.take_succ_cons, mismatchesFrom, List.length_cons, Nat.add_sub_add_right, Nat.add_assoc]

theorem mismatches_eq (base : Sample) (width : Nat) (xs : List Sample) :
    mismatches base width xs = ((List.range width).filter fun q => xs[q]? ≠ some (BitVec.ofNat 12 q + base)).length := by
  rw [mismatches, mismatchesFrom_eq]
  simp only [differing, Nat.zero_add]

/-! ### The checker's three answers (R63, R64) -/

theorem checkCaptured_inStep {ch : Checker} (inStep : ch.inStep = true) (width : Nat) (xs : List Sample) (c : LaneCounters) :
    let bad := mismatches ch.expected width xs
    let counted := { c with checkError := c.checkError + BitVec.ofNat 32 bad }
    checkCaptured width xs ch c =
      (if 64 < bad then { ch with inStep := false, cleanRun := 0 } else { ch with expected := ch.expected + 1 },
        if 64 < bad then { counted with outOfStep := counted.outOfStep + 1 } else counted) := by
  intro bad counted
  rw [checkCaptured, if_pos inStep]
  by_cases many : 64 < bad
  · rw [if_pos many, if_pos many]
    exact if_pos many
  · rw [if_neg many, if_neg many]
    exact if_neg many

theorem checkCaptured_hunting {ch : Checker} (hunting : ch.inStep = false) (width : Nat) (x : Sample) (xs : List Sample)
    (c : LaneCounters) : checkCaptured width (x :: xs) ch c =
      (if mismatches x width (x :: xs) = 0 then
          if ch.cleanRun = 2 then { inStep := true, cleanRun := 3, expected := x + 1 } else { ch with cleanRun := ch.cleanRun + 1 }
        else { ch with cleanRun := 0 }, c) := by
  rw [checkCaptured, if_neg (by rw [hunting]; exact Bool.false_ne_true)]
  dsimp only [List.headD_cons]
  by_cases clean : mismatches x width (x :: xs) = 0
  · rw [if_pos clean, if_pos clean]
    by_cases third : ch.cleanRun = 2
    · rw [if_pos third, third]
      rfl
    · rw [if_neg third, if_neg (by unfold Config.cleanRunGoal; omega)]
  · rw [if_neg clean, if_neg clean]

theorem checkLine_camera (k : Lane) (w : Line) (xs : List Sample) (s : State) :
    let r := checkCaptured (s.lane k).width xs (s.lane k).checker ((LineBody.camera xs).judge (s.lane k).width (s.lane k).counters)
    checkLine k w (.camera xs) s = s.setLane k { s.lane k with checker := r.1, counters := r.2 } := rfl

theorem checkLine_missing (k : Lane) (w : Line) (s : State) :
    checkLine k w .missing s = s.setLane k { s.lane k with checker := checkMissing (s.lane k).checker } := rfl

/-- The oldest entry of CHECK handled in a lane without a drain, an immediate item or a commit: the checker takes the line (R57, R62). -/
theorem removeOldest_check {k : Lane} {s : State} {e : FifoEntry} {rest : List FifoEntry} (fifo : (s.lane k).fifo = e :: rest)
    (check : e.mode = .check) (undrained : (s.lane k).drain = 0) (noItem : (s.lane k).pendingImmediate = none)
    (noCommit : s.cb.commit = none) (b : LineBody) :
    removeOldest k b s = checkLine k e.wln b (s.setLane k { s.lane k with fifo := rest }) := by
  have begun : lineBegun k (s.setLane k { s.lane k with fifo := rest }) = s.setLane k { s.lane k with fifo := rest } :=
    lineBegun_idle (by rw [State.lane_setLane_self]; exact noItem) fun c pending => by
      rw [State.setLane_cb, noCommit] at pending
      cases pending
  rw [removeOldest_undrained fifo undrained, check, lineEvent_check, begun]

/-- Settles O34: a line event in CHECK is the checker's answer alone, its mismatches counted position by position. -/
theorem checkLineJudged : Obligations.CheckLineJudged := by
  unfold Obligations.CheckLineJudged
  refine ⟨?_, ?_, ?_⟩
  · intro s k x xs e rest settled up fifo check undrained noItem noCommit l differ judged
    have arrives : settle (arriveLine k (.good (x :: xs)) s) = s.setLane k { l with
        fifo := rest
        checker := (checkCaptured l.width (x :: xs) l.checker judged).1
        counters := (checkCaptured l.width (x :: xs) l.checker judged).2 } := by
      rw [arriveLine_paired up (fifo ▸ List.cons_ne_nil _ _), removeOldest_check fifo check undrained noItem noCommit, checkLine_camera,
        State.lane_setLane_self, State.setLane_setLane, settle_setLane settled]
      rfl
    have counted (base : Sample) : mismatches base l.width (x :: xs) = differ base := mismatches_eq _ _ _
    refine ⟨fun inStep => congrArg Host.Outcome.next (arrives.trans ?_), fun hunting => congrArg Host.Outcome.next (arrives.trans ?_)⟩
    · rw [checkCaptured_inStep inStep, counted]
    · rw [checkCaptured_hunting hunting, counted]
  · intro s k e rest settled up fifo check undrained noItem noCommit l
    set counted := { l with counters := { l.counters with frameError := l.counters.frameError + 1 } }
    have own : (s.setLane k counted).lane k = counted := State.lane_setLane_self _ _ _
    have taken := removeOldest_check (s := s.setLane k counted) (e := e) (rest := rest) (by rw [own]; exact fifo) check
      (by rw [own]; exact undrained) (by rw [own]; exact noItem) noCommit .missing
    rw [checkLine_missing, State.lane_setLane_self (s.setLane k counted), own, State.setLane_setLane, State.setLane_setLane,
      checkMissing] at taken
    exact congrArg Host.Outcome.next ((congrArg settle ((arriveLine_damaged up).trans taken)).trans (settle_setLane settled k _))
  · intro s k w offset noItem other l
    rw [lineEvent_check, lineBegun_idle noItem other, checkLine_missing, checkMissing]
    refine ⟨fun inStep => ?_, fun hunting => ?_⟩
    · rw [if_pos inStep]
    · rw [if_neg (by rw [hunting]; exact Bool.false_ne_true)]

end Sys2Proof.Machine
end

section
/-!
SUPPORT. Loss and return of a lane link (R65, R66): the FIFO flushed as missing lines, and the events that raise no LANE.
-/

namespace Sys2Proof.Machine

/-! ### Operations that leave LANE as it is at every port -/

/-- LANE is pending at the same ports as before. -/
def SameLaneNotices (s t : State) : Prop :=
  ∀ p, NoticeSet.has (t.port p).pendingSet .lane = NoticeSet.has (s.port p).pendingSet .lane

theorem SameLaneNotices.refl (s : State) : SameLaneNotices s s := fun _ => rfl

theorem SameLaneNotices.of_ports {s t : State} (h : t.ports = s.ports) : SameLaneNotices s t := fun p => by rw [State.port, h]; rfl

theorem SameLaneNotices.trans {s t u : State} (h : SameLaneNotices s t) (g : SameLaneNotices t u) : SameLaneNotices s u :=
  fun p => (g p).trans (h p)

theorem sameLaneNotices_ite {c : Prop} [Decidable c] {s t u : State} (h : SameLaneNotices s t) (g : SameLaneNotices s u) :
    SameLaneNotices s (if c then t else u) := iteInduction (motive := SameLaneNotices s) (fun _ => h) fun _ => g

theorem raiseWhere_sameLane (sel : Port → ConsumerPort → Bool) {k : NoticeKind} (other : .lane ≠ k) (s : State) :
    SameLaneNotices s (raiseWhere sel k s) := by
  intro p
  rw [raiseWhere_pendingSet]
  split
  · rw [NoticeSet.has_add, decide_eq_false other, Bool.false_or]
  · rfl

theorem updateLane_sameLane (k : Lane) (f : LaneFrontEnd → LaneFrontEnd) (s : State) : SameLaneNotices s (updateLane k f s) := .of_ports rfl

theorem withBsc_sameLane (s : State) (x : BandStore) : SameLaneNotices s (s.withBsc x) := .of_ports rfl

theorem judgePressure_sameLane (s : State) : SameLaneNotices s (judgePressure s) :=
  sameLaneNotices_ite (sameLaneNotices_ite (raiseWhere_sameLane _ (by decide) _) (.refl s))
    (sameLaneNotices_ite (raiseWhere_sameLane _ (by decide) _) (.refl s))

theorem freeSlot_sameLane (slot : Nat) (s : State) : SameLaneNotices s (freeSlot slot s) :=
  (withBsc_sameLane s _).trans (judgePressure_sameLane _)

theorem setPort_sameLane (s : State) (p : Port) (c : ConsumerPort) (pending : c.pendingSet = (s.port p).pendingSet) :
    SameLaneNotices s (s.setPort p c) := by
  intro q
  rw [State.port_setPort]
  split
  next same => rw [same, pending]
  · rfl

theorem matchWindow_sameLane (slot : Nat) (b : Band) (acc : State × Nat) (id : Nat) :
    SameLaneNotices acc.1 (matchWindow slot b acc id).1 := by
  unfold matchWindow
  split
  · exact .refl _
  next w _ =>
    split
    · split
      · exact setPort_sameLane _ _ _ (setQueue_pendingSet _ _ _)
      · exact .trans (t := putWindow id { w with gap := true, dropped := w.dropped + 1 } acc.1) (.of_ports rfl)
          (setPort_sameLane _ _ _ rfl)
    · exact .refl _

theorem matchBand_sameLane (slot : Nat) (b : Band) (s : State) : SameLaneNotices s (matchBand slot b s).1 := by
  have fold : ∀ (ids : List Nat) (acc : State × Nat), SameLaneNotices acc.1 (ids.foldl (matchWindow slot b) acc).1 := by
    intro ids
    induction ids with
    | nil => exact fun acc => .refl _
    | cons id ids ih => exact fun acc => (matchWindow_sameLane slot b acc id).trans (ih _)
  exact fold _ (s, 0)

theorem sealBand_sameLane (k : Lane) (stop : Bool) (s : State) : SameLaneNotices s (sealBand k stop s) := by
  unfold sealBand
  split
  · exact .refl s
  · split
    · exact .of_ports rfl
    next slot _ _ _ _ =>
      have matched : ∀ b, SameLaneNotices s (matchBand slot b
          (clearFilling k (s.withBsc { s.bsc with sealSequence := s.bsc.sealSequence + 1 }))).1 := fun b =>
        .trans ((withBsc_sameLane s _).trans (withBsc_sameLane _ _)) (matchBand_sameLane _ _ _)
      dsimp only
      exact sameLaneNotices_ite ((matched _).trans (freeSlot_sameLane _ _)) ((matched _).trans (withBsc_sameLane _ _))

theorem extendBand_sameLane (slot : Nat) (b : Band) (x : Placement) (s : State) : SameLaneNotices s (extendBand slot b x s) := by
  unfold extendBand
  extract_lets t
  have written : SameLaneNotices s t := by
    unfold t
    split <;> exact .of_ports rfl
  exact sameLaneNotices_ite (written.trans (sealBand_sameLane _ _ _)) written

theorem openBand_sameLane (x : Placement) (s : State) : SameLaneNotices s (openBand x s) := by
  unfold openBand
  split
  · exact withBsc_sameLane s _
  · exact ((withBsc_sameLane s _).trans (judgePressure_sameLane _)).trans (extendBand_sameLane _ _ _ _)

theorem place_sameLane (x : Placement) (s : State) : SameLaneNotices s (place x s) := by
  have next : SameLaneNotices s (openBand x (sealBand x.lane false s)) := (sealBand_sameLane _ _ s).trans (openBand_sameLane x _)
  unfold place
  split
  · exact openBand_sameLane x s
  · split
    · exact next
    · exact sameLaneNotices_ite (extendBand_sameLane _ _ x s) next

theorem completeCommit_sameLane (k : Lane) (s : State) : SameLaneNotices s (completeCommit k s) := by
  unfold completeCommit
  split
  · exact .refl s
  · exact sameLaneNotices_ite (.trans (.of_ports rfl) (raiseWhere_sameLane _ (by decide) _)) (.refl s)

theorem endSearch_sameLane (x : Search) (cause : EndCause) (w : Line) (s : State) : SameLaneNotices s (endSearch x cause w s) := by
  unfold endSearch
  extract_lets results t
  have staged : SameLaneNotices s t := sameLaneNotices_ite (.of_ports rfl) (.refl s)
  exact staged.trans (.trans (.of_ports rfl) (raiseWhere_sameLane _ (by decide) _))

theorem updateRecord_sameLane (x : Search) (k : Lane) (r : SearchRecord) (s : State) : SameLaneNotices s (updateRecord x k r s) :=
  sameLaneNotices_ite (.of_ports rfl) (endSearch_sameLane _ _ _ s)

theorem levelLine_sameLane (k : Lane) (stamp : Line) (offset : Nat) (samples : Option (List Byte)) (s : State) :
    SameLaneNotices s (levelLine k stamp offset samples s) := by
  unfold levelLine
  split
  · exact .refl s
  · exact .refl s
  · split
    · exact .refl s
    · exact sameLaneNotices_ite (sameLaneNotices_ite (updateRecord_sameLane _ _ _ s) (.of_ports rfl)) (.refl s)

theorem runLine_sameLane (k : Lane) (w : Line) (offset : Nat) (b : LineBody) (s : State) : SameLaneNotices s (runLine k w offset b s) := by
  unfold runLine
  dsimp only
  refine sameLaneNotices_ite (updateLane_sameLane _ _ s) ?_
  split
  · exact updateLane_sameLane _ _ s
  · exact ((updateLane_sameLane k _ s).trans (place_sameLane _ _)).trans (levelLine_sameLane _ _ _ _ _)

theorem lineEvent_sameLane (k : Lane) (w : Line) (offset : Nat) (mode : ActiveMode) (b : LineBody) (s : State) :
    SameLaneNotices s (lineEvent k w offset mode b s) := by
  have begun : SameLaneNotices s (lineBegun k s) := (completeCommit_sameLane k s).trans (updateLane_sameLane k _ _)
  cases mode with
  | run => rw [lineEvent_run]; exact begun.trans (runLine_sameLane _ _ _ _ _)
  | check => rw [lineEvent_check]; exact begun.trans (updateLane_sameLane k _ _)

/-- A line handled raises no LANE, whatever it seals, completes or ends (R48, R171). -/
theorem removeOldest_sameLane (k : Lane) (b : LineBody) (s : State) : SameLaneNotices s (removeOldest k b s) := by
  cases fifo : (s.lane k).fifo with
  | nil => rw [removeOldest_empty fifo]; exact .refl s
  | cons e rest =>
    rw [removeOldest_cons fifo]
    have event := SameLaneNotices.trans (s := s) (.of_ports rfl) (lineEvent_sameLane k e.wln e.offset e.mode b
      (s.setLane k { s.lane k with fifo := rest, drain := (s.lane k).drain - 1 }))
    exact sameLaneNotices_ite (event.trans (sealBand_sameLane _ _ _)) event

/-! ### What a line leaves of the record of its lane's link -/

/-- A lane keeps its link state and its count of link losses. -/
structure LinkKept (l x : LaneFrontEnd) : Prop where
  linkUp : x.linkUp = l.linkUp
  linkLoss : x.counters.linkLoss = l.counters.linkLoss

theorem LinkKept.refl (l : LaneFrontEnd) : LinkKept l l := ⟨rfl, rfl⟩

theorem LinkKept.trans {l x y : LaneFrontEnd} (h : LinkKept l x) (g : LinkKept x y) : LinkKept l y :=
  ⟨g.linkUp.trans h.linkUp, g.linkLoss.trans h.linkLoss⟩

theorem applyImmediate_link (l : LaneFrontEnd) : LinkKept l (applyImmediate l) := by
  unfold applyImmediate
  split
  · exact .refl l
  · exact ⟨rfl, rfl⟩

theorem lanePlaced_missing_link (stamp rn : Line) (l : LaneFrontEnd) : LinkKept l (lanePlaced stamp rn .missing l) := by
  rw [lanePlaced_eq]
  exact ⟨rfl, rfl⟩

theorem runLine_missing_link (k : Lane) (w : Line) (offset : Nat) (s : State) :
    LinkKept (s.lane k) ((runLine k w offset .missing s).lane k) := by
  have counted (f : LaneCounters → LaneCounters) (kept : (f (s.lane k).counters).linkLoss = (s.lane k).counters.linkLoss) :
      LinkKept (s.lane k) ((countLane k f s).lane k) := by
    rw [countLane, updateLane_lane_self]
    exact ⟨rfl, kept⟩
  unfold runLine
  extract_lets stamp early
  split
  · exact counted _ rfl
  · split
    · exact counted _ rfl
    next e _ =>
      extract_lets placed l bytes stored
      have own : stored.lane k = lanePlaced stamp e.rn .missing (s.lane k) :=
        (State.lane_congr ((place_agree _ placed).lanes (by decide)) k).trans (updateLane_lane_self _ _ _)
      have samples : bytes = none := rfl
      rw [samples, State.lane_congr (levelLine_missing_lanes k stamp offset stored), own]
      exact lanePlaced_missing_link stamp e.rn _

theorem lineEvent_missing_link (k : Lane) (w : Line) (offset : Nat) (mode : ActiveMode) (s : State) :
    LinkKept (s.lane k) ((lineEvent k w offset mode .missing s).lane k) := by
  have begun : LinkKept (s.lane k) ((lineBegun k s).lane k) := by
    rw [lineBegun, updateLane_lane_self, completeCommit_lane]
    exact applyImmediate_link _
  cases mode with
  | run => rw [lineEvent_run]; exact begun.trans (runLine_missing_link _ _ _ _)
  | check =>
    rw [lineEvent_check, checkLine_missing, State.lane_setLane_self]
    exact begun.trans ⟨rfl, rfl⟩

/-! ### The FIFO flushed as missing lines (R65) -/

/-- The oldest entries of a lane's FIFO, a number of them, were handled as missing lines, with no no-response counted. -/
structure EntriesFlushed (k : Lane) (n : Nat) (s t : State) : Prop where
  fifo : (t.lane k).fifo = (s.lane k).fifo.drop n
  drain : (t.lane k).drain = (s.lane k).drain - n
  noResponse : (t.lane k).counters.noResponse = (s.lane k).counters.noResponse
  state : (t.lane k).state = (s.lane k).state
  source : (t.lane k).source = (s.lane k).source
  offset : (t.lane k).offset = (s.lane k).offset
  hunting : (s.lane k).checker.inStep = false ∧ (s.lane k).checker.cleanRun = 0 →
    (t.lane k).checker.inStep = false ∧ (t.lane k).checker.cleanRun = 0
  link : LinkKept (s.lane k) (t.lane k)
  grows : PendingGrows s t
  notices : SameLaneNotices s t

theorem EntriesFlushed.refl (k : Lane) (s : State) : EntriesFlushed k 0 s s :=
  ⟨rfl, rfl, rfl, rfl, rfl, rfl, id, .refl _, .refl s, .refl s⟩

theorem EntriesFlushed.trans {k : Lane} {m n : Nat} {s t u : State} (h : EntriesFlushed k m s t) (g : EntriesFlushed k n t u) :
    EntriesFlushed k (m + n) s u where
  fifo := by rw [g.fifo, h.fifo, List.drop_drop]
  drain := by rw [g.drain, h.drain, Nat.sub_sub]
  noResponse := g.noResponse.trans h.noResponse
  state := g.state.trans h.state
  source := g.source.trans h.source
  offset := g.offset.trans h.offset
  hunting := fun hunts => g.hunting (h.hunting hunts)
  link := h.link.trans g.link
  grows := h.grows.trans g.grows
  notices := h.notices.trans g.notices

theorem removeOldest_flushed {k : Lane} {s : State} {e : FifoEntry} {rest : List FifoEntry} (fifo : (s.lane k).fifo = e :: rest) :
    EntriesFlushed k 1 s (removeOldest k .missing s) := by
  set taken := s.setLane k { s.lane k with fifo := rest, drain := (s.lane k).drain - 1 } with ht
  have own : taken.lane k = { s.lane k with fifo := rest, drain := (s.lane k).drain - 1 } := State.lane_setLane_self _ _ _
  obtain ⟨x, lanes, kept⟩ := lineEvent_missing_lanes k e.wln e.offset e.mode taken
  have link := lineEvent_missing_link k e.wln e.offset e.mode taken
  have event : (lineEvent k e.wln e.offset e.mode .missing taken).lane k = x := by rw [State.lane, lanes, PerLane.get_set_self]
  rw [own] at kept link
  rw [event] at link
  have lane : (removeOldest k .missing s).lane k = x := by
    rw [removeOldest_cons fifo]
    split
    · rw [sealBand_lane, event]
    · exact event
  constructor
  case fifo => rw [lane, fifo]; exact kept.fifo
  case drain => rw [lane]; exact kept.drain
  case noResponse => rw [lane]; exact kept.noResponse
  case state => rw [lane]; exact kept.state
  case source => rw [lane]; exact kept.source
  case offset => rw [lane]; exact kept.offset
  case hunting => rw [lane]; exact kept.hunting
  case link => rw [lane]; exact ⟨link.linkUp, link.linkLoss⟩
  case grows => exact removeOldest_grows k _ s
  case notices => exact removeOldest_sameLane k _ s

theorem foldl_removeOldest_flushed (k : Lane) (es : List FifoEntry) : ∀ {s : State}, (s.lane k).fifo = es →
    EntriesFlushed k es.length s (es.foldl (fun s _ => removeOldest k .missing s) s) := by
  induction es with
  | nil => exact fun _ => .refl k _
  | cons e es ih =>
    intro s fifo
    have first := removeOldest_flushed fifo
    have rest : ((removeOldest k .missing s).lane k).fifo = es := by rw [first.fifo, fifo]; rfl
    have all := first.trans (ih rest)
    rw [Nat.add_comm] at all
    exact all

theorem EntriesFlushed.settle {k : Lane} {n : Nat} {s t : State} (h : EntriesFlushed k n s t) : EntriesFlushed k n s (settle t) := by
  have lane : (Sys2Proof.Machine.settle t).lane k = t.lane k := State.lane_congr (settle_lanes t) k
  constructor
  case fifo => rw [lane]; exact h.fifo
  case drain => rw [lane]; exact h.drain
  case noResponse => rw [lane]; exact h.noResponse
  case state => rw [lane]; exact h.state
  case source => rw [lane]; exact h.source
  case offset => rw [lane]; exact h.offset
  case hunting => rw [lane]; exact h.hunting
  case link => rw [lane]; exact h.link
  case grows => exact h.grows.trans (settle_grows t)
  case notices => exact fun p => (congrArg (NoticeSet.has · .lane) (settle_pendingSet t p)).trans (h.notices p)

theorem flushMissing_length (k : Lane) (es : List FifoEntry) :
    ∀ s, flushMissing k es.length s = es.foldl (fun s _ => removeOldest k .missing s) s := by
  induction es with
  | nil => exact fun _ => rfl
  | cons e es ih => exact fun s => ih (removeOldest k .missing s)

/-! ### Link loss and link return (R65, R66) -/

theorem loseLaneLink_up {k : Lane} {s : State} (up : (s.lane k).linkUp = true) :
    loseLaneLink k s = flushMissing k ((faultLane k (s.setLane k (s.lane k).unlinked)).lane k).fifo.length
      (faultLane k (s.setLane k (s.lane k).unlinked)) := by
  rw [loseLaneLink, if_pos up]
  rfl

theorem faultLane_active {k : Lane} {s : State} {m : ActiveMode} (active : (s.lane k).state = .active m) :
    faultLane k s = changeState k (.fault m) s := by
  rw [faultLane, active]

theorem faultLane_inactive {k : Lane} {s : State} (inactive : ∀ m, (s.lane k).state ≠ .active m) : faultLane k s = s := by
  unfold faultLane
  split
  next m active => exact absurd active (inactive m)
  · rfl
  · rfl

/-- A lane that leaves FAULT for its remembered mode raises LANE, and nothing else follows (R48, R66). -/
theorem changeState_from_fault {k : Lane} {m : ActiveMode} {s : State} (fault : (s.lane k).state = .fault m) :
    changeState k (.active m) s = raiseUp .lane (s.setLane k { s.lane k with state := .active m }) := by
  simp [changeState, fault, LaneState.isFault, updateLane]

theorem returnLaneLink_fault {k : Lane} {s : State} {m : ActiveMode} (fault : (s.lane k).state = .fault m) :
    returnLaneLink k s = raiseUp .lane (s.setLane k { s.lane k with linkUp := true, state := .active m }) := by
  have own : (s.setLane k { s.lane k with linkUp := true }).lane k = { s.lane k with linkUp := true } := State.lane_setLane_self _ _ _
  have state : ((s.setLane k { s.lane k with linkUp := true }).lane k).state = .fault m := by rw [own]; exact fault
  have changed := changeState_from_fault state
  rw [own, State.setLane_setLane] at changed
  unfold returnLaneLink updateLane
  dsimp only
  rw [state]
  exact changed

theorem returnLaneLink_off {k : Lane} {s : State} (off : (s.lane k).state = .off) :
    returnLaneLink k s = s.setLane k { s.lane k with linkUp := true } := by
  have state : ((s.setLane k { s.lane k with linkUp := true }).lane k).state = .off := by rw [State.lane_setLane_self]; exact off
  unfold returnLaneLink updateLane
  dsimp only
  rw [state]

/-- A lane's record after the loss of its link, in the state it goes to (R65). -/
structure LinkLost (k : Lane) (new : LaneState) (s t : State) : Prop where
  linkUp : (t.lane k).linkUp = false
  state : (t.lane k).state = new
  fifo : (t.lane k).fifo = []
  drain : (t.lane k).drain = (s.lane k).drain - (s.lane k).fifo.length
  linkLoss : (t.lane k).counters.linkLoss = (s.lane k).counters.linkLoss + 1
  noResponse : (t.lane k).counters.noResponse = (s.lane k).counters.noResponse
  inStep : (t.lane k).checker.inStep = false
  cleanRun : (t.lane k).checker.cleanRun = 0
  source : (t.lane k).source = (s.lane k).source
  offset : (t.lane k).offset = (s.lane k).offset

theorem linkLost_of_flushed {k : Lane} {new : LaneState} {s v t : State} (own : v.lane k = { (s.lane k).unlinked with state := new })
    (flushed : EntriesFlushed k (s.lane k).fifo.length v t) : LinkLost k new s t := by
  obtain ⟨fifo, drain, noResponse, state, source, offset, hunting, link, _, _⟩ := flushed
  rw [own] at fifo drain noResponse state source offset hunting link
  obtain ⟨inStep, cleanRun⟩ := hunting ⟨rfl, rfl⟩
  exact ⟨link.linkUp, state, fifo.trans List.drop_length, drain, link.linkLoss, noResponse, inStep, cleanRun, source, offset⟩

/-- A link loss, from the state in which the lane has gone to FAULT where it does: its FIFO is flushed (R65). -/
theorem loseLaneLink_flushes {k : Lane} {s v : State} {new : LaneState} (up : (s.lane k).linkUp = true)
    (faulted : faultLane k (s.setLane k (s.lane k).unlinked) = v) (own : v.lane k = { (s.lane k).unlinked with state := new }) :
    loseLaneLink k s = (s.lane k).fifo.foldl (fun s _ => removeOldest k .missing s) v
    ∧ EntriesFlushed k (s.lane k).fifo.length v (settle (loseLaneLink k s)) := by
  have fifo : (v.lane k).fifo = (s.lane k).fifo := by rw [own]; rfl
  have lost : loseLaneLink k s = (s.lane k).fifo.foldl (fun s _ => removeOldest k .missing s) v := by
    rw [loseLaneLink_up up, faulted, fifo, flushMissing_length]
  refine ⟨lost, ?_⟩
  rw [lost]
  exact (foldl_removeOldest_flushed k _ fifo).settle

/-- Settles O36: the change of state first, then the flush of the FIFO, which keeps the link's record and raises no LANE. -/
theorem laneLinks : Obligations.LaneLinks := by
  unfold Obligations.LaneLinks
  refine ⟨fun s k m up active => ?_, fun s k up inactive => ?_, fun s k => ⟨fun m fault => ?_, fun settled off => ?_⟩⟩
  · set a := s.setLane k (s.lane k).unlinked
    set v := changeState k (.fault m) a
    have unlinked : a.lane k = (s.lane k).unlinked := State.lane_setLane_self _ _ _
    have before : (a.lane k).state = .active m := by rw [unlinked]; exact active
    have change : StateChanged k (.fault m) a v := changeState_spec k _ a
    have own : v.lane k = { (s.lane k).unlinked with state := .fault m } := by rw [change.own, unlinked]
    have raised : PendingUp .lane s v := change.raised (by rw [before]; exact Bool.false_ne_true)
    obtain ⟨lost, flushed⟩ := loseLaneLink_flushes up (faultLane_active before) own
    have lane := linkLost_of_flushed own flushed
    refine ⟨settle (loseLaneLink k s), rfl, lane.linkUp, lane.state, lane.fifo, lane.linkLoss, lane.noResponse, lane.inStep, lane.cleanRun,
      lane.source, lane.offset, raised.grow flushed.grows, ⟨v, congrArg settle lost, ?record, ?commit, ?check, ?rest⟩,
      (loseLaneLink_agree k s).trans ((settle_agree _).mono (by decide))⟩
    case record => rw [own]; rfl
    case commit =>
      rw [change.cb, before, if_pos ⟨nofun, .inr rfl⟩]
      exact completeCommit_cb_congr k rfl
    case check =>
      rintro rfl
      obtain ⟨le, others⟩ := change.quiet (by rw [before]; exact nofun)
      exact ⟨le, by rw [own]; rfl, fun j ne => (others j ne).trans (State.lane_setLane_ne _ _ ne)⟩
    case rest => exact (agree_setLane s k _ (by decide)).trans (changeState_agree k _ a)
  · set a := s.setLane k (s.lane k).unlinked
    have own : a.lane k = { (s.lane k).unlinked with state := (s.lane k).state } := State.lane_setLane_self _ _ _
    obtain ⟨lost, flushed⟩ := loseLaneLink_flushes up (faultLane_inactive (by rw [own]; exact inactive)) own
    have lane := linkLost_of_flushed own flushed
    exact ⟨settle (loseLaneLink k s), rfl, congrArg settle lost, lane.linkUp, lane.state, lane.fifo, lane.drain, lane.linkLoss,
      lane.noResponse, lane.inStep, lane.cleanRun, flushed.notices, (loseLaneLink_agree k s).trans ((settle_agree _).mono (by decide))⟩
  · refine ⟨settle (returnLaneLink k s), rfl, ?_, fun p => ?_, ?_⟩
    · rw [settle_lanes, returnLaneLink_fault fault]
      rfl
    · rw [settle_pendingSet, returnLaneLink_fault fault]
      exact raiseUp_raisedUp .lane (s.setLane k { s.lane k with linkUp := true, state := .active m }) p
    · exact ((returnLaneLink_agree k s).mono (by decide)).trans ((settle_agree _).mono (by decide))
  · exact congrArg Host.Outcome.next ((congrArg settle (returnLaneLink_off off)).trans (settle_setLane settled k _))

end Sys2Proof.Machine
end

section
/-!
SUPPORT. The correction of a captured line, sample by sample (R70, R71).
-/

namespace Sys2Proof.Machine

theorem correctSample_toNat (c : Correction) (x : Sample) :
    (correctSample c x).toNat = min 255 (((x.toNat - c.dark) * c.gain + 32768) / 65536) :=
  byte_toNat (Nat.lt_succ_of_le (Nat.min_le_left 255 _))

theorem narrowSample_toNat (x : Sample) : (narrowSample x).toNat = x.toNat / 16 :=
  byte_toNat (Nat.div_lt_of_lt_mul x.isLt)

/-- The sample at a position is corrected by the table's entry of that position (R70). -/
theorem correctFrom_getElem? (t : List (Nat × Correction)) (xs : List Sample) :
    ∀ p q, (correctFrom t p xs)[q]? = xs[q]?.map (correctSample (correctionAt t (p + q))) := by
  induction xs with
  | nil => exact fun _ _ => rfl
  | cons x xs ih =>
    intro p q
    cases q with
    | zero => rfl
    | succ q =>
      rw [correctFrom, List.getElem?_cons_succ, List.getElem?_cons_succ, ih, Nat.add_right_comm, Nat.add_assoc]

/-- Settles O37: correction acts at each position by itself. -/
theorem correctionOfLine : Obligations.CorrectionOfLine := by
  unfold Obligations.CorrectionOfLine
  intro t xs
  refine ⟨correctLine_length t true xs, correctLine_length t false xs, fun q x sample => ⟨?_, ?_⟩⟩
  · refine ⟨correctSample (correctionAt t q) x, ?_, correctSample_toNat _ x⟩
    show (correctFrom t 0 xs)[q]? = _
    rw [correctFrom_getElem?, sample, Nat.zero_add]
    rfl
  · refine ⟨narrowSample x, ?_, narrowSample_toNat x⟩
    show (xs.map narrowSample)[q]? = _
    rw [List.getElem?_map, sample]
    rfl

end Sys2Proof.Machine
end

section
/-!
SUPPORT. The requests on the staging page (R73 to R77): their common conditions, and PAGE_CLEAR, PAGE_SEEK and PAGE_FILL.
-/

namespace Sys2Proof.Machine

/-! ### What the four requests have in common (R73) -/

theorem unlessCommit_idle {s : State} (idle : s.cb.commit = none) (act : RequestFrame → State → State × Answer) (f : RequestFrame) :
    unlessCommit act f s = act f s := if_neg (by rw [idle]; exact Bool.false_ne_true)

theorem unlessCommit_pending {s : State} (pending : s.cb.commit.isSome = true) (act : RequestFrame → State → State × Answer)
    (f : RequestFrame) : unlessCommit act f s = (s, { code := .busy }) := if_pos pending

/-- A staging request from the claim holder with no commit pending acts on the fields that its layout gives (R73, R178). -/
theorem stagingRequest_acts {α : Type} {p : Port} {s : State} {f : RequestFrame} {read : List Byte → Option α}
    {act : α → State → State × Answer} {x : α} (holder : s.shared.holder = some p) (idle : s.cb.commit = none)
    (fields : read f.fields = some x) : asHolder p (unlessCommit (withFields read act)) f s = act x s := by
  rw [asHolder_holder holder, unlessCommit_idle idle, withFields_read fields]

/-- A staging request whose action changes the Correction Block alone, or nothing: it leaves the queue and is answered (R165). -/
theorem takeRequest_staging {α : Type} {s : State} {p : Port} {r : Request} {tag : Byte} {rest : List RequestFrame}
    {read : List Byte → Option α} {act : α → State → State × Answer} {x : α} {cb : CorrectionBlock} {a : Answer} (settled : Settled s)
    (taken : Taken s p (r.frame tag) rest) (holder : s.shared.holder = some p) (idle : s.cb.commit = none)
    (fields : read r.fields = some x) (does : act x (requestLeft p rest s) = ((requestLeft p rest s).withCb cb, a)) :
    takeRequest p (some r.kind) (asHolder p (unlessCommit (withFields read act))) s
      = .next (answered p rest (responseTo r tag a) (s.withCb cb)) := by
  have acts := stagingRequest_acts (s := requestLeft p rest s) (f := r.frame tag) (act := act) holder idle fields
  rw [takeRequest_settled settled taken (Request.frame_kind r tag) (acts.trans does) rfl rfl (State.port_setPort_self _ _ _)
    fun q ne => State.port_setPort_ne _ _ ne]
  exact congrArg (fun u : State => Host.Outcome.next (u.withCb cb)) (State.setPort_setPort s p _ _)

/-! ### Fields read back (11.3) -/

theorem readSeek_fields {e : Nat} (h : e < 65536) : readSeek (Request.pageSeek e).fields = some e :=
  congrArg some (leValue_leBytes (n := 2) h)

theorem readEntries_flatMap (es : List Correction) :
    (∀ c ∈ es, c.dark < 65536 ∧ c.gain < 65536) → readEntries (es.flatMap entryBytes) = some es := by
  induction es with
  | nil => exact fun _ => rfl
  | cons c es ih =>
    intro fits
    rw [List.forall_mem_cons] at fits
    obtain ⟨⟨dark, gain⟩, others⟩ := fits
    have read : readEntries ((c :: es).flatMap entryBytes) = (readEntries (es.flatMap entryBytes)).map fun es =>
        { dark := leValue (leBytes 2 c.dark), gain := leValue (leBytes 2 c.gain) } :: es := rfl
    rw [read, ih others, leValue_leBytes dark, leValue_leBytes gain]
    rfl

theorem readFill_fields {es : List Correction} (h : (Request.pageFill es).fits) : readFill (Request.pageFill es).fields = some es := by
  obtain ⟨count, entries⟩ := h
  show readFill (BitVec.ofNat 8 es.length :: es.flatMap entryBytes) = some es
  rw [readFill, readEntries_flatMap es entries]
  exact if_pos (byte_toNat count).symm

/-! ### Entries written at the staging pointer (R76) -/

/-- The entry at the pointer is the written one, any other as before. -/
theorem fillEntry_at (b : CorrectionBlock) (c : Correction) (n : Nat) :
    correctionAt (fillEntry b c).staging n = if n = b.pointer then c else correctionAt b.staging n := by
  have staging : (fillEntry b c).staging = tableSplice b.staging b.pointer 1 (tableRun Correction.unity b.pointer [c]) := by
    unfold fillEntry
    dsimp only
    split <;> rfl
  have inside : ∀ e ∈ tableRun Correction.unity b.pointer [c], b.pointer ≤ e.1 ∧ e.1 < b.pointer + 1 :=
    fun e he => (tableRun_inside _ [c] _ e he).1
  rw [staging, correctionAt, tableGet_splice _ _ _ _ _ inside]
  by_cases own : n = b.pointer
  · subst own
    rw [if_pos ⟨le_rfl, Nat.lt_succ_self _⟩, if_pos rfl, tableGet_run _ _ _ _ le_rfl, Nat.sub_self]
    rfl
  · rw [if_neg (by omega), if_neg own]
    rfl

/-- What the writing of one entry does to the rest of the block: the pointer stops at 255, where a write sets the flag (R76). -/
theorem fillEntry_rest {b : CorrectionBlock} (c : Correction) (inside : b.pointer ≤ 255) :
    (fillEntry b c).tables = b.tables ∧ (fillEntry b c).commit = b.commit ∧ (fillEntry b c).pointer = min 255 (b.pointer + 1)
    ∧ (fillEntry b c).endWritten = (b.endWritten || decide (255 ≤ b.pointer)) := by
  unfold fillEntry
  dsimp only
  split
  next below => exact ⟨rfl, rfl, (Nat.min_eq_right below).symm, by rw [decide_eq_false (Nat.not_le.mpr below), Bool.or_false]⟩
  next past =>
    have past : 255 ≤ b.pointer := Nat.not_lt.mp past
    exact ⟨rfl, rfl, by rw [Nat.min_eq_left (past.trans (Nat.le_succ _))]; exact le_antisymm inside past,
      by rw [decide_eq_true past, Bool.or_true]⟩

/-- A staging entry after entries were written in order from a pointer on, from what it was before: those past entry 255 went to
entry 255, the last one staying (R76). -/
def filledEntry (es : List Correction) (pointer n : Nat) (before : Correction) : Correction :=
  if n < pointer then before
  else if n < 255 then (es[n - pointer]?).getD before
  else if n = 255 then (if 256 ≤ pointer + es.length then es.getLast?.getD before else before)
  else before

theorem filledEntry_nil (pointer n : Nat) (before : Correction) : filledEntry [] pointer n before = before := by
  simp [filledEntry]

theorem filledEntry_below {n : Nat} (es : List Correction) (pointer : Nat) (before : Correction) (below : n < 255) :
    filledEntry es pointer n before = if n < pointer then before else (es[n - pointer]?).getD before := by
  rw [filledEntry, if_pos below]

theorem filledEntry_last (es : List Correction) {pointer : Nat} (before : Correction) (inside : pointer ≤ 255) :
    filledEntry es pointer 255 before = if 256 ≤ pointer + es.length then es.getLast?.getD before else before := by
  rw [filledEntry, if_neg (Nat.not_lt.mpr inside), if_neg (Nat.lt_irrefl 255), if_pos rfl]

theorem filledEntry_above {n : Nat} (es : List Correction) (pointer : Nat) (before : Correction) (above : 255 < n) :
    filledEntry es pointer n before = before := by
  rw [filledEntry, if_neg (Nat.lt_asymm above), if_neg (Nat.ne_of_gt above), ite_self]

/-- The first entry goes to the pointer, the others follow from the pointer it leaves. -/
theorem filledEntry_cons (c : Correction) (es : List Correction) {pointer : Nat} (n : Nat) (before : Correction)
    (inside : pointer ≤ 255) :
    filledEntry (c :: es) pointer n before = filledEntry es (min 255 (pointer + 1)) n (if n = pointer then c else before) := by
  obtain below | rfl | above := Nat.lt_trichotomy n 255
  · rw [filledEntry_below _ _ _ below, filledEntry_below _ _ _ below]
    obtain earlier | rfl | later := Nat.lt_trichotomy n pointer
    · rw [if_pos earlier, if_pos (by omega), if_neg (Nat.ne_of_lt earlier)]
    · rw [if_neg (Nat.lt_irrefl n), if_pos (by omega), if_pos rfl, Nat.sub_self]
      rfl
    · have next : n - pointer = n - min 255 (pointer + 1) + 1 := by omega
      rw [if_neg (Nat.lt_asymm later), if_neg (by omega), if_neg (Nat.ne_of_gt later), next, List.getElem?_cons_succ]
  · rw [filledEntry_last _ _ inside, filledEntry_last _ _ (Nat.min_le_left _ _)]
    cases es with
    | nil =>
      have reached : 256 ≤ pointer + [c].length ↔ 255 = pointer := by rw [List.length_singleton]; omega
      simp only [reached, List.getLast?_singleton, Option.getD_some, List.getLast?_nil, Option.getD_none, ite_self]
    | cons d es =>
      have reached : 256 ≤ pointer + (c :: d :: es).length ↔ 256 ≤ min 255 (pointer + 1) + (d :: es).length := by
        simp only [List.length_cons]
        omega
      simp only [reached, List.getLast?_cons_cons]
      split
      · rw [List.getLast?_cons, Option.getD_some, Option.getD_some]
      next short =>
        rw [List.length_cons] at short
        rw [if_neg (by omega)]
  · rw [filledEntry_above _ _ _ above, filledEntry_above _ _ _ above, if_neg (by omega)]

/-- The Correction Block after the entries of a PAGE_FILL are written (R76). -/
structure PageFilled (es : List Correction) (b d : CorrectionBlock) : Prop where
  tables : d.tables = b.tables
  commit : d.commit = b.commit
  pointer : d.pointer = min 255 (b.pointer + es.length)
  endWritten : d.endWritten = (b.endWritten || decide (256 ≤ b.pointer + es.length))
  staging : ∀ n, correctionAt d.staging n = filledEntry es b.pointer n (correctionAt b.staging n)

theorem fillEntries_filled (es : List Correction) :
    ∀ {b : CorrectionBlock} (marked : Bool), b.pointer ≤ 255 → PageFilled es b (fillEntries es b marked).1 := by
  induction es with
  | nil =>
    intro b marked inside
    have notPast : ¬256 ≤ b.pointer + ([] : List Correction).length := Nat.not_le.mpr (Nat.lt_succ_of_le inside)
    exact ⟨rfl, rfl, (Nat.min_eq_right inside).symm, by rw [decide_eq_false notPast, Bool.or_false]; rfl,
      fun n => (filledEntry_nil _ _ _).symm⟩
  | cons c es ih =>
    intro b marked inside
    obtain ⟨tables, commit, pointer, endWritten⟩ := fillEntry_rest c inside
    have others := ih (b := fillEntry b c) (marked || b.endWritten) (by rw [pointer]; exact Nat.min_le_left _ _)
    have length : (c :: es).length = es.length + 1 := rfl
    constructor
    case tables => exact others.tables.trans tables
    case commit => exact others.commit.trans commit
    case pointer => exact others.pointer.trans (by rw [pointer, length]; omega)
    case endWritten =>
      refine others.endWritten.trans ?_
      have past : (255 ≤ b.pointer ∨ 256 ≤ min 255 (b.pointer + 1) + es.length) ↔ 256 ≤ b.pointer + (es.length + 1) := by omega
      rw [pointer, endWritten, length, Bool.or_assoc, ← Bool.decide_or, decide_eq_decide.mpr past]
    case staging =>
      intro n
      refine (others.staging n).trans ?_
      rw [pointer, fillEntry_at, ← filledEntry_cons c es n _ inside]

/-- A PAGE_FILL is marked where an entry is written after entry 255 (R76). -/
theorem fillEntries_marked (es : List Correction) : ∀ {b : CorrectionBlock} (marked : Bool), b.pointer ≤ 255 → 1 ≤ es.length →
    (fillEntries es b marked).2 = (marked || (b.endWritten || decide (256 < b.pointer + es.length))) := by
  induction es with
  | nil => exact fun _ _ nonempty => absurd nonempty (by decide)
  | cons c es ih =>
    intro b marked inside _
    obtain ⟨_, _, pointer, endWritten⟩ := fillEntry_rest c inside
    rw [fillEntries]
    cases es with
    | nil =>
      have notPast : ¬256 < b.pointer + [c].length := by rw [List.length_singleton]; omega
      rw [fillEntries, decide_eq_false notPast, Bool.or_false]
    | cons d es =>
      have length : (c :: d :: es).length = es.length + 2 := rfl
      have past : (255 ≤ b.pointer ∨ 256 < min 255 (b.pointer + 1) + (es.length + 1)) ↔ 256 < b.pointer + (es.length + 2) := by omega
      rw [ih (b := fillEntry b c) _ (by rw [pointer]; exact Nat.min_le_left _ _) (Nat.le_add_left _ _), pointer, endWritten, length,
        List.length_cons, Bool.or_assoc b.endWritten, ← Bool.decide_or, decide_eq_decide.mpr past, Bool.or_assoc marked,
        ← Bool.or_assoc b.endWritten b.endWritten, Bool.or_self]

theorem fillInRange_iff (es : List Correction) :
    fillInRange es = true ↔ (1 ≤ es.length ∧ es.length ≤ 32) ∧ ∀ c ∈ es, c.dark ≤ 4095 ∧ c.gain ≤ 16383 := by
  simp [fillInRange]

/-- Settles O38: each request is read back from its fields and changes the Correction Block alone. -/
theorem stagingRequests : Obligations.StagingRequests := by
  unfold Obligations.StagingRequests
  intro s p tag rest settled holder idle
  refine ⟨fun taken => ?_, fun e taken small => ?_, fun es taken fits inside => ⟨fun outside => ?_, fun nonempty few entries => ?_⟩⟩
  · exact takeRequest_staging (r := .pageClear) (x := ()) settled taken holder idle rfl rfl
  · have read := readSeek_fields small
    split
    next inRange => exact takeRequest_staging (r := .pageSeek e) settled taken holder idle read (if_pos inRange)
    next outside => exact takeRequest_staging (r := .pageSeek e) (cb := s.cb) settled taken holder idle read (if_neg outside)
  · have refused : ¬fillInRange es = true := by
      rw [fillInRange_iff]
      rintro ⟨⟨nonempty, few⟩, entries⟩
      obtain none | many | ⟨c, mem, wrong⟩ := outside
      · omega
      · omega
      · have := entries c mem
        omega
    exact takeRequest_staging (r := .pageFill es) (cb := s.cb) settled taken holder idle (readFill_fields fits) (if_neg refused)
  · have accepted : fillInRange es = true := (fillInRange_iff es).mpr ⟨⟨nonempty, few⟩, entries⟩
    have filled := fillEntries_filled es (b := s.cb) false inside
    have marked := fillEntries_marked es (b := s.cb) false inside nonempty
    rw [Bool.false_or] at marked
    refine ⟨(fillEntries es s.cb false).1, ?_, filled.tables, filled.commit, filled.pointer, filled.endWritten, filled.staging⟩
    rw [← marked]
    exact takeRequest_staging (r := .pageFill es) settled taken holder idle (readFill_fields fits) (if_pos accepted)

end Sys2Proof.Machine
end

section
/-!
SUPPORT. PAGE_COMMIT and the completion of a commit (R77 to R79).
-/

namespace Sys2Proof.Machine

/-! ### The completion (R78) -/

/-- The Correction Block with the staging page copied into a page of a lane's table and no commit pending (R78). -/
def CorrectionBlock.committed (b : CorrectionBlock) (k : Lane) (page : Nat) : CorrectionBlock :=
  { b with tables := b.tables.set k (copyPage b.staging page (b.tables.get k)), commit := none }

/-- What the completion of a commit leaves of the Correction Block (R78). -/
structure PageCopied (k : Lane) (page : Nat) (b d : CorrectionBlock) : Prop where
  commit : d.commit = none
  staging : d.staging = b.staging
  pointer : d.pointer = b.pointer
  endWritten : d.endWritten = b.endWritten
  own : ∀ i, correctionAt (d.tables.get k) i =
    if 256 * page ≤ i ∧ i < 256 * page + 256 then correctionAt b.staging (i - 256 * page) else correctionAt (b.tables.get k) i
  others : ∀ j, j ≠ k → d.tables.get j = b.tables.get j

theorem committed_copied (b : CorrectionBlock) (k : Lane) (page : Nat) : PageCopied k page b (b.committed k page) where
  commit := rfl
  staging := rfl
  pointer := rfl
  endWritten := rfl
  own := fun i => by
    rw [CorrectionBlock.committed, PerLane.get_set_self]
    exact copyPage_at _ _ page i
  others := fun _ ne => PerLane.get_set_ne b.tables _ ne

theorem completeCommit_own {s : State} {c : Commit} (pending : s.cb.commit = some c) :
    completeCommit c.lane s = raiseAt c.port .commit (s.withCb (s.cb.committed c.lane c.page)) := by
  rw [completeCommit, pending]
  exact if_pos rfl

/-- A kind raised at one port joins its pending set if the port is LIVE or STALLED (R171). -/
theorem raiseAt_raised (p : Port) (k : NoticeKind) (s : State) :
    Raised (fun q => decide (q = p) && (s.port q).isUp) k s (raiseAt p k s) := fun q => raiseWhere_pendingSet _ k s q

theorem raiseAt_raisedUp {p : Port} {s : State} (k : NoticeKind) (up : (s.port p).isUp = true) :
    Raised (fun q => decide (q = p)) k s (raiseAt p k s) := by
  have selected : (fun q => decide (q = p) && (s.port q).isUp) = fun q => decide (q = p) := by
    funext q
    rw [Bool.and_eq_left_iff_imp, decide_eq_true_eq]
    rintro rfl
    exact up
  rw [← selected]
  exact raiseAt_raised p k s

/-! ### PAGE_COMMIT taken (R77) -/

theorem laneOfNumber_laneNumber (k : Lane) : laneOfNumber (laneNumber k) = some k := by cases k <;> rfl

theorem laneOfNumber_above {n : Nat} (h : 7 < n) : laneOfNumber n = none := by
  unfold laneOfNumber
  split
  case h_9 => rfl
  all_goals omega

theorem laneNumber_lt (k : Lane) : laneNumber k < 256 := by cases k <;> decide

theorem readPair_fields {k n : Nat} (lane : k < 256) (page : n < 256) : readPair (Request.pageCommit k n).fields = some (k, n) := by
  have read : readPair (Request.pageCommit k n).fields = some ((BitVec.ofNat 8 k).toNat, (BitVec.ofNat 8 n).toNat) := rfl
  rw [read, byte_toNat lane, byte_toNat page]

theorem pageCommit_noLane {k : Nat} (p : Port) (n : Nat) (s : State) (above : 7 < k) :
    pageCommit p (k, n) s = (s, { code := .range }) := by
  rw [pageCommit, laneOfNumber_above above]
  rfl

theorem pageCommit_noPage {n : Nat} (p : Port) (k : Lane) (s : State) (above : 31 < n) :
    pageCommit p (laneNumber k, n) s = (s, { code := .range }) := by
  rw [pageCommit, laneOfNumber_laneNumber]
  exact if_neg (Nat.not_le.mpr above)

theorem pageCommit_active {n : Nat} {k : Lane} {s : State} {m : ActiveMode} (p : Port) (page : n ≤ 31)
    (active : (s.lane k).state = .active m) : pageCommit p (laneNumber k, n) s
      = (s.withCb { s.cb with commit := some { lane := k, page := n, port := p } }, { code := .done }) := by
  rw [pageCommit, laneOfNumber_laneNumber]
  dsimp only
  rw [if_pos page, State.lane_withCb, active]

/-- For a lane that is OFF or in FAULT the commit completes at once (R77, R79). -/
theorem pageCommit_inactive {n : Nat} {k : Lane} {s : State} (p : Port) (page : n ≤ 31) (inactive : ∀ m, (s.lane k).state ≠ .active m) :
    pageCommit p (laneNumber k, n) s = (raiseAt p .commit (s.withCb (s.cb.committed k n)), { code := .done }) := by
  have completes : completeCommit k (s.withCb { s.cb with commit := some { lane := k, page := n, port := p } })
      = raiseAt p .commit (s.withCb (s.cb.committed k n)) := completeCommit_own (c := { lane := k, page := n, port := p }) rfl
  rw [pageCommit, laneOfNumber_laneNumber]
  dsimp only
  rw [if_pos page, State.lane_withCb]
  cases state : (s.lane k).state with
  | active m => exact absurd state (inactive m)
  | off => exact congrArg (·, _) completes
  | fault m => exact congrArg (·, _) completes

theorem requestLeft_pendingSet (p : Port) (rest : List RequestFrame) (s : State) (q : Port) :
    ((requestLeft p rest s).port q).pendingSet = (s.port q).pendingSet := by
  rw [requestLeft, State.port_setPort]
  split
  next own => rw [own]
  · rfl

/-- The four staging requests, each behind the claim and the pending commit (R73). -/
theorem exec_staging {kind : RequestKind} (p : Port) (s : State) (staging : kind ∈ [.pageClear, .pageSeek, .pageFill, .pageCommit]) :
    ∃ act, exec (kind.command p) s = takeRequest p (some kind) (asHolder p (unlessCommit act)) s := by
  simp only [List.mem_cons, List.not_mem_nil, or_false] at staging
  obtain rfl | rfl | rfl | rfl := staging
  all_goals exact ⟨_, rfl⟩

/-! ### The lane events that complete a commit (R79) -/

/-- With no commit pending for its lane, a removal of the oldest entry leaves the Correction Block as it is. -/
theorem removeOldest_cb {k : Lane} {s : State} (done : (completeCommit k s).cb = s.cb) (b : LineBody) :
    (removeOldest k b s).cb = s.cb := by
  cases fifo : (s.lane k).fifo with
  | nil => rw [removeOldest_empty fifo]
  | cons e rest =>
    set taken := s.setLane k { s.lane k with fifo := rest, drain := (s.lane k).drain - 1 }
    have event : (lineEvent k e.wln e.offset e.mode b taken).cb = s.cb :=
      (lineEvent_cb k _ _ _ b taken).trans ((completeCommit_cb_congr (s := taken) (t := s) k rfl).trans done)
    rw [removeOldest_cons fifo]
    split
    · rw [(sealBand_agree k false _).cb (by decide)]
      exact event
    · exact event

theorem flushMissing_cb (k : Lane) (n : Nat) : ∀ {s : State}, (completeCommit k s).cb = s.cb → (flushMissing k n s).cb = s.cb := by
  induction n with
  | zero => exact fun _ => rfl
  | succ n ih =>
    intro s done
    have first := removeOldest_cb done .missing
    exact (ih ((completeCommit_cb_congr k first).trans (done.trans first.symm))).trans first

/-- A lane in RUN or CHECK that loses its link reaches the Correction Block by the completion of its commit alone (R65, R79). -/
theorem loseLaneLink_cb {k : Lane} {s : State} {m : ActiveMode} (up : (s.lane k).linkUp = true) (active : (s.lane k).state = .active m) :
    (loseLaneLink k s).cb = (completeCommit k s).cb := by
  set a := s.setLane k (s.lane k).unlinked
  have state : (a.lane k).state = .active m := by rw [State.lane_setLane_self]; exact active
  have faulted : (faultLane k a).cb = (completeCommit k s).cb := by
    rw [faultLane_active state, (changeState_spec k (.fault m) a).cb, state, if_pos ⟨nofun, .inr rfl⟩]
    exact completeCommit_cb_congr k rfl
  have done : (completeCommit k (faultLane k a)).cb = (faultLane k a).cb :=
    (completeCommit_cb_congr k faulted).trans ((completeCommit_idem k s).trans faulted.symm)
  rw [loseLaneLink_up up, flushMissing_cb k _ done, faulted]

/-- A line event completes a pending commit before anything else: it goes as from the state in which the commit is completed (R53, R79). -/
theorem lineEvent_completed {s : State} {c : Commit} (pending : s.cb.commit = some c) (w : Line) (offset : Nat) (mode : ActiveMode)
    (body : LineBody) : lineEvent c.lane w offset mode body s = lineEvent c.lane w offset mode body (completeCommit c.lane s) := by
  have completed : (completeCommit c.lane s).cb.commit = none := by rw [completeCommit_own pending]; rfl
  have again : completeCommit c.lane (completeCommit c.lane s) = completeCommit c.lane s :=
    completeCommit_other fun d found => by rw [completed] at found; cases found
  unfold lineEvent
  rw [again]

/-! ### The obligation -/

/-- PAGE_COMMIT for a lane that is OFF or in FAULT: the page is in the table at once, COMMIT raised and the response delivered (R77). -/
theorem pageCommit_atOnce {s : State} {p : Port} {tag : Byte} {rest : List RequestFrame} {k : Lane} {n : Nat} (settled : Settled s)
    (taken : Taken s p ((Request.pageCommit (laneNumber k) n).frame tag) rest) (holder : s.shared.holder = some p)
    (idle : s.cb.commit = none) (page : n ≤ 31) (inactive : ∀ m, (s.lane k).state ≠ .active m) : ∃ t, exec (.pageCommit p) s = .next t
      ∧ Delivered s t p rest (responseTo (.pageCommit (laneNumber k) n) tag { code := .done })
      ∧ t.cb = s.cb.committed k n ∧ Raised (fun q => decide (q = p)) .commit s t ∧ State.Agree [.cb, .windows, .ports] s t := by
  set r := Request.pageCommit (laneNumber k) n
  set u := (requestLeft p rest s).withCb (s.cb.committed k n) with hu
  have does : asHolder p (unlessCommit (withFields readPair (pageCommit p))) (r.frame tag) (requestLeft p rest s)
      = (raiseAt p .commit u, { code := .done }) := by
    rw [stagingRequest_acts (s := requestLeft p rest s) holder idle
      (readPair_fields (laneNumber_lt k) (Nat.lt_of_le_of_lt page (by decide)))]
    exact pageCommit_inactive (s := requestLeft p rest s) p page inactive
  have run : exec (.pageCommit p) s = _ := takeRequest_taken taken (Request.frame_kind r tag) does
  obtain ⟨_, next, agree⟩ := commandFrames (.pageCommit p) s
  rw [run] at next
  cases next
  have own : u.port p = { s.port p with requests := rest } := State.port_setPort_self _ _ _
  refine ⟨_, run, delivered_of_raises settled taken.isUp ?_, ?_, fun q => ?_, agree⟩
  · obtain ⟨pending, notice, e⟩ := raiseWhere_kept (fun q c => decide (q = p) && c.isUp) .commit u p
    exact ⟨pending, notice, e.trans (by rw [own])⟩
  · rw [settle_cb]
    rfl
  · rw [settle_pendingSet, respond_pendingSet, raiseAt_raisedUp (s := u) .commit (by rw [own]; exact taken.isUp) q, hu,
      State.port_withCb, requestLeft_pendingSet]

/-- Settles O39: PAGE_COMMIT by the lane's state, BUSY before any field, and the completion at the lane's next line event or link loss. -/
theorem pageCommitTaken : Obligations.PageCommitTaken := by
  unfold Obligations.PageCommitTaken
  refine ⟨?_, ?_, ?_, ?_⟩
  · intro s p tag rest k n settled taken small holder idle
    have read := readPair_fields (laneNumber_lt k) small
    refine ⟨fun above => ?_, fun page active => ?_, fun page inactive => ?_⟩
    · exact takeRequest_staging (r := .pageCommit (laneNumber k) n) (cb := s.cb) settled taken holder idle read
        (pageCommit_noPage p k _ above)
    · obtain ⟨m, active⟩ := active
      exact takeRequest_staging (r := .pageCommit (laneNumber k) n) settled taken holder idle read
        (pageCommit_active (s := requestLeft p rest s) p page active)
    · obtain ⟨t, run, delivered, cb, raised, agree⟩ := pageCommit_atOnce settled taken holder idle page inactive
      have copied : PageCopied k n s.cb t.cb := cb ▸ committed_copied s.cb k n
      exact ⟨t, run, delivered, copied.commit, copied.staging, copied.pointer, copied.endWritten, copied.own, copied.others, raised, agree⟩
  · intro s p tag rest k n settled taken above lane page holder idle
    exact takeRequest_staging (r := .pageCommit k n) (cb := s.cb) settled taken holder idle (readPair_fields lane page)
      (pageCommit_noLane p n _ above)
  · intro s p f rest kind settled taken named staging holder pending
    obtain ⟨act, command⟩ := exec_staging p s staging
    rw [command]
    exact takeRequest_answered settled taken named
      ((asHolder_holder (s := requestLeft p rest s) holder f).trans (unlessCommit_pending (s := requestLeft p rest s) pending act f))
  · intro s c pending t
    have own : t = raiseAt c.port .commit (s.withCb (s.cb.committed c.lane c.page)) := completeCommit_own pending
    have copied : PageCopied c.lane c.page s.cb t.cb := own ▸ committed_copied s.cb c.lane c.page
    have raised : Raised (fun q => decide (q = c.port) && (s.port q).isUp) .commit s t :=
      own ▸ raiseAt_raised c.port .commit (s.withCb (s.cb.committed c.lane c.page))
    refine ⟨⟨copied.commit, copied.staging, copied.pointer, copied.endWritten, copied.own, copied.others, raised,
      completeCommit_agree c.lane s (by decide) (by decide)⟩, lineEvent_completed pending, fun m up active => ?_, fun k ne => ?_⟩
    · exact ⟨_, rfl, (settle_cb _).trans (loseLaneLink_cb up active)⟩
    · refine completeCommit_other fun d found => ?_
      cases pending.symm.trans found
      exact ne.symm

end Sys2Proof.Machine
end

section
/-!
SUPPORT. The Leveling Engine's search: its results and its end (R87, R88), and the lines it is handed (R84).
-/

namespace Sys2Proof.Machine

/-! ### Results (R87) -/

theorem lineDiff_self (a : Line) : lineDiff a a = 0 := by simp [lineDiff]

/-- The record of a search that has ended, whatever ended it. -/
def Search.finished (x : Search) (cause : EndCause) (w : Line) : Finished :=
  { request := x.request, port := x.port, start := x.start, cause := cause, endWln := w, results := x.results cause }

theorem Search.results_get (x : Search) (cause : EndCause) (k : Lane) :
    (x.results cause).get k = (x.records.get k).map (laneResult x cause k) := PerLane.get_map _ _ k

/-- A lane with an edge, against a reference with one: FOUND where the sum is an offset, out of range otherwise (R87). -/
theorem rawResult_edge {r : SearchRecord} {g : Edge} (reference : Edge) (status : r.status = .edge) (edge : r.edge = some g) :
    rawResult (some reference) r =
      if 0 ≤ (g.offset : Int) + lineDiff g.stamp reference.stamp ∧ (g.offset : Int) + lineDiff g.stamp reference.stamp ≤ 4095 then
        { probe := r.probe, status := .found, edge := some g
          newOffset := some ((g.offset : Int) + lineDiff g.stamp reference.stamp).toNat }
      else { probe := r.probe, status := .outOfRange, edge := some g, newOffset := none } := by
  unfold rawResult
  rw [status, edge]

theorem rawResult_waiting {r : SearchRecord} (reference : Option Edge) (status : r.status = .waiting) :
    rawResult reference r = { probe := r.probe, status := .notFound, edge := none, newOffset := none } := by
  unfold rawResult
  rw [status]

theorem rawResult_notRunning {r : SearchRecord} (reference : Option Edge) (status : r.status = .notRunning) :
    rawResult reference r = { probe := r.probe, status := .notRunning, edge := none, newOffset := none } := by
  unfold rawResult
  rw [status]

/-- Without a reference edge no lane is FOUND, and a lane with an edge is shown with it (R87). -/
theorem rawResult_noReference (r : SearchRecord) : rawResult none r = {
    probe := r.probe
    status := match r.status with
      | .waiting => .notFound
      | .notRunning => .notRunning
      | .edge => .noReference
    edge := if r.status = .edge then r.edge else none
    newOffset := none } := by
  unfold rawResult
  cases r.status with
  | waiting => rfl
  | notRunning => rfl
  | edge => cases r.edge <;> rfl

section Reference

variable {x : Search} {q : SearchRecord}

theorem Search.referenceEdge_edge (record : x.records.get x.request.reference = some q) (status : q.status = .edge) :
    x.referenceEdge = q.edge := by
  rw [referenceEdge, record]
  exact if_pos status

theorem Search.referenceEdge_noEdge (record : x.records.get x.request.reference = some q) (status : q.status ≠ .edge) :
    x.referenceEdge = none := by
  rw [referenceEdge, record]
  exact if_neg status

/-- The reference lane with an edge lies no distance from itself, so it is FOUND with its own offset (R87). -/
theorem Search.referenceFound_edge {base : Edge} (record : x.records.get x.request.reference = some q) (status : q.status = .edge)
    (edge : q.edge = some base) (small : base.offset ≤ 4095) : x.referenceFound = true := by
  have inRange : 0 ≤ (base.offset : Int) + lineDiff base.stamp base.stamp
      ∧ (base.offset : Int) + lineDiff base.stamp base.stamp ≤ 4095 := by
    rw [lineDiff_self]
    omega
  rw [referenceFound, record]
  dsimp only
  rw [referenceEdge_edge record status, edge, rawResult_edge base status edge, if_pos inRange]
  rfl

theorem Search.referenceFound_noEdge (record : x.records.get x.request.reference = some q) (status : q.status ≠ .edge) :
    x.referenceFound = false := by
  rw [referenceFound, record]
  dsimp only
  rw [referenceEdge_noEdge record status, rawResult_noReference]
  cases q.status <;> rfl

end Reference

theorem laneResult_raw {x : Search} {cause : EndCause} {k : Lane} (ended : cause ≠ .abort)
    (judged : x.referenceFound = true ∨ k = x.request.reference) (r : SearchRecord) :
    laneResult x cause k r = rawResult x.referenceEdge r := by
  rw [laneResult, if_neg ended]
  exact if_pos judged

theorem laneResult_noReference {x : Search} {cause : EndCause} {k : Lane} (ended : cause ≠ .abort) (lost : x.referenceFound = false)
    (other : k ≠ x.request.reference) (r : SearchRecord) :
    laneResult x cause k r = { rawResult x.referenceEdge r with status := .noReference, newOffset := none } := by
  rw [laneResult, if_neg ended]
  exact if_neg (not_or.mpr ⟨by rw [lost]; exact Bool.false_ne_true, other⟩)

theorem laneResult_abort (x : Search) (k : Lane) (r : SearchRecord) :
    laneResult x .abort k r = { probe := r.probe, status := .aborted, edge := r.edge, newOffset := none } := if_pos rfl

/-- A search that was not aborted ends with the results of R87. -/
theorem Search.finished_endedBy (x : Search) {cause : EndCause} (w : Line) (ended : cause ≠ .abort) :
    EndedBy x cause w (x.finished cause w) where
  record := ⟨rfl, rfl, rfl, rfl, rfl⟩
  outside := fun k none => by
    show (x.results cause).get k = _
    rw [results_get, none, Option.map_none]
  withReference := by
    intro q base reference status edge small k r record
    have result : (x.finished cause w).results.get k = some (rawResult (some base) r) := by
      show (x.results cause).get k = _
      rw [results_get, record, Option.map_some, laneResult_raw ended (.inl (referenceFound_edge reference status edge small)),
        referenceEdge_edge reference status, edge]
    rw [result]
    refine ⟨fun waiting => ?_, fun notRunning => ?_, fun g status edge => ⟨fun low high => ?_, fun outside => ?_⟩⟩
    · rw [rawResult_waiting _ waiting]
    · rw [rawResult_notRunning _ notRunning]
    · rw [rawResult_edge base status edge, if_pos ⟨low, high⟩]
    · rw [rawResult_edge base status edge, if_neg (by omega)]
  withoutReference := by
    intro q reference status
    have noEdge := referenceEdge_noEdge reference status
    refine ⟨?_, fun k r other record => ?_⟩
    · show (x.results cause).get _ = _
      rw [results_get, reference, Option.map_some, laneResult_raw ended (.inr rfl), noEdge, rawResult_noReference]
      cases found : q.status with
      | waiting => rfl
      | notRunning => rfl
      | edge => exact absurd found status
    · show (x.results cause).get k = _
      rw [results_get, record, Option.map_some, laneResult_noReference ended (referenceFound_noEdge reference status) other, noEdge,
        rawResult_noReference]

/-- A lane is FOUND only where the reference is (R87). -/
theorem referenceFound_of_found {x : Search} {cause : EndCause} {k : Lane} {r : SearchRecord} (record : x.records.get k = some r)
    (found : (laneResult x cause k r).status = .found) : cause ≠ .abort ∧ x.referenceFound = true := by
  have ended : cause ≠ .abort := by
    rintro rfl
    rw [laneResult_abort] at found
    cases found
  refine ⟨ended, ?_⟩
  by_contra none
  rw [Bool.not_eq_true] at none
  by_cases own : k = x.request.reference
  · subst own
    rw [laneResult_raw ended (.inr rfl)] at found
    rw [Search.referenceFound, record] at none
    simp [found] at none
  · rw [laneResult_noReference ended none own] at found
    cases found

theorem isFound_iff {o : Option LaneResult} : isFound o = true ↔ ∃ r, o = some r ∧ r.status = .found := by
  cases o with
  | none => simp [isFound]
  | some r => simp [isFound]

/-- A FOUND reference shows as FOUND in its own result (R87). -/
theorem isFound_reference {x : Search} {cause : EndCause} (ended : cause ≠ .abort) (found : x.referenceFound = true) :
    isFound ((x.results cause).get x.request.reference) = true := by
  rw [Search.results_get]
  cases record : x.records.get x.request.reference with
  | none => simp [Search.referenceFound, record] at found
  | some r =>
    rw [Search.referenceFound, record] at found
    rw [Option.map_some, laneResult_raw ended (.inr rfl)]
    exact found

/-! ### The end (R88) -/

theorem stageOffsets_lane (results : PerLane (Option LaneResult)) (s : State) (k : Lane) : (stageOffsets results s).lane k =
    match results.get k with
    | none => s.lane k
    | some r => if r.status = .found then { s.lane k with pendingOffset := r.newOffset } else s.lane k := PerLane.get_map _ _ k

/-- A search that stages no offset: DONE, and LEVEL raised at the requesting port (R88, R89). -/
theorem endSearch_unstaged {x : Search} {cause : EndCause} (w : Line) (s : State)
    (none : cause = .abort ∨ isFound ((x.results cause).get x.request.reference) = false) :
    endSearch x cause w s = raiseAt x.port .level (s.withLe (.done (x.finished cause w))) := by
  unfold endSearch
  extract_lets results staged
  have same : staged = s := if_neg (by
    rintro ⟨ended, _, found⟩
    rcases none with abort | none
    · exact ended abort
    · exact Bool.false_ne_true (none.symm.trans found))
  rw [same]
  rfl

theorem endSearch_staged {x : Search} {cause : EndCause} (w : Line) (s : State) (ended : cause ≠ .abort) (apply : x.request.apply = true)
    (found : isFound ((x.results cause).get x.request.reference) = true) :
    endSearch x cause w s = raiseAt x.port .level ((stageOffsets (x.results cause) s).withLe (.done (x.finished cause w))) := by
  unfold endSearch
  extract_lets results staged
  have stages : staged = stageOffsets results s := if_pos ⟨ended, apply, found⟩
  rw [stages]
  rfl

/-- The offset item of a FOUND lane is its new offset where apply is set (R88). -/
theorem endSearch_lane_found {x : Search} {cause : EndCause} {k : Lane} {r : LaneResult} (w : Line) (s : State)
    (apply : x.request.apply = true) (result : (x.results cause).get k = some r) (found : r.status = .found) :
    (endSearch x cause w s).lane k = { s.lane k with pendingOffset := r.newOffset } := by
  obtain ⟨q, record, rfl⟩ := Option.map_eq_some_iff.mp ((x.results_get cause k).symm.trans result)
  obtain ⟨ended, reference⟩ := referenceFound_of_found record found
  rw [endSearch_staged w s ended apply (isFound_reference ended reference)]
  show (stageOffsets (x.results cause) s).lane k = _
  rw [stageOffsets_lane, result]
  exact if_pos found

/-- No other lane changes (R88). -/
theorem endSearch_lane_kept {x : Search} {cause : EndCause} {k : Lane} (w : Line) (s : State)
    (kept : x.request.apply = false ∨ ∀ r, (x.results cause).get k = some r → r.status ≠ .found) :
    (endSearch x cause w s).lane k = s.lane k := by
  unfold endSearch
  extract_lets results staged
  show staged.lane k = s.lane k
  refine iteInduction (motive := fun u : State => u.lane k = s.lane k) (fun ⟨_, apply, _⟩ => ?_) fun _ => rfl
  rcases kept with off | kept
  · exact absurd (off.symm.trans apply) Bool.false_ne_true
  · rw [stageOffsets_lane]
    split
    · rfl
    next r result => exact if_neg (kept r result)

theorem endSearch_le (x : Search) (cause : EndCause) (w : Line) (s : State) :
    (endSearch x cause w s).le = .done (x.finished cause w) := rfl

theorem endSearch_raised (x : Search) (cause : EndCause) (w : Line) (s : State) :
    Raised (fun q => decide (q = x.port) && (s.port q).isUp) .level s (endSearch x cause w s) := by
  unfold endSearch
  extract_lets results staged
  have ports : staged.ports = s.ports := iteInduction (motive := fun u : State => u.ports = s.ports) (fun _ => rfl) fun _ => rfl
  intro p
  have port : staged.port p = s.port p := by
    rw [State.port, ports]
    rfl
  show ((raiseWhere _ _ (staged.withLe _)).port p).pendingSet = _
  rw [raiseWhere_pendingSet, State.port_withLe, port]

/-- The end of a search that was not aborted (R87, R88). -/
theorem endSearch_ended (x : Search) {cause : EndCause} (w : Line) (s : State) (ended : cause ≠ .abort) :
    SearchEnded x cause w s (endSearch x cause w s) := by
  refine ⟨x.finished cause w, endSearch_le x cause w s, x.finished_endedBy w ended, fun k r n apply result found offset => ?_,
    fun k kept => endSearch_lane_kept w s kept, endSearch_raised x cause w s, endSearch_agree x cause w s⟩
  rw [endSearch_lane_found w s apply result found, offset]

/-! ### A record replaced (R84, R85) -/

/-- The search with one lane's record replaced. -/
def Search.withRecord (x : Search) (k : Lane) (r : SearchRecord) : Search := { x with records := x.records.set k (some r) }

theorem updateRecord_awaits {x : Search} {k : Lane} {r : SearchRecord} (s : State) (awaits : (x.withRecord k r).awaits) :
    updateRecord x k r s = s.withLe (.searching (x.withRecord k r)) := if_pos ((Search.anyWaiting_iff _).mpr awaits)

theorem updateRecord_ends {x : Search} {k : Lane} {r : SearchRecord} (s : State) (ends : ¬(x.withRecord k r).awaits) :
    updateRecord x k r s = endSearch (x.withRecord k r) .edges s.mu.wln s :=
  if_neg fun waiting => ends ((Search.anyWaiting_iff _).mp waiting)

/-! ### Lines (R84) -/

/-- The value at the probe rises through the threshold: the previous one is present and below it. -/
abbrev Rises (threshold : Nat) (r : SearchRecord) (v : Byte) : Prop :=
  ∃ before, r.previous = some before ∧ before.toNat < threshold ∧ threshold ≤ v.toNat

theorem examine_rises {threshold : Nat} {r : SearchRecord} {v : Byte} (stamp : Line) (offset : Nat) (rises : Rises threshold r v) :
    examine threshold stamp offset (some v) r
      = { r with status := .edge, edge := some { stamp := stamp, offset := offset }, previous := some v } := by
  obtain ⟨before, previous, crosses⟩ := rises
  rw [examine, previous]
  exact if_pos crosses

theorem examine_level {threshold : Nat} {r : SearchRecord} {v : Byte} (stamp : Line) (offset : Nat) (level : ¬Rises threshold r v) :
    examine threshold stamp offset (some v) r = { r with previous := some v } := by
  rw [examine]
  cases previous : r.previous with
  | none => rfl
  | some before => exact if_neg fun crosses => level ⟨before, previous, crosses⟩

theorem levelLine_noRecord {s : State} {x : Search} {k : Lane} (searching : s.le = .searching x) (none : x.records.get k = none)
    (stamp : Line) (offset : Nat) (samples : Option (List Byte)) : levelLine k stamp offset samples s = s := by
  rw [levelLine, searching]
  dsimp only
  rw [none]

section Line

variable {s : State} {x : Search} {k : Lane} {r : SearchRecord} (searching : s.le = .searching x) (record : x.records.get k = some r)

include searching record

theorem levelLine_ignored {stamp : Line} (ignored : r.status ≠ .waiting ∨ lineDiff stamp x.start < 0) (offset : Nat)
    (samples : Option (List Byte)) : levelLine k stamp offset samples s = s := by
  rw [levelLine, searching]
  dsimp only
  rw [record]
  refine if_neg ?_
  rintro ⟨waiting, later⟩
  rcases ignored with other | before
  · exact other waiting
  · omega

/-- A line of a WAITING lane from the start on is examined at the probe; an edge may end the search (R84). -/
theorem levelLine_examined {stamp : Line} (waiting : r.status = .waiting) (later : 0 ≤ lineDiff stamp x.start) (offset : Nat)
    (samples : Option (List Byte)) : levelLine k stamp offset samples s =
      let r' := examine x.request.threshold stamp offset (samples.bind (·[r.probe]?)) r
      if r'.status = .edge then updateRecord x k r' s else s.withLe (.searching (x.withRecord k r')) := by
  rw [levelLine, searching]
  dsimp only
  rw [record]
  dsimp only
  rw [if_pos ⟨waiting, later⟩]
  cases samples <;> rfl

theorem levelLine_kept {stamp : Line} (waiting : r.status = .waiting) (later : 0 ≤ lineDiff stamp x.start) (offset : Nat)
    {samples : Option (List Byte)} {previous : Option Byte}
    (examined : examine x.request.threshold stamp offset (samples.bind (·[r.probe]?)) r = { r with previous := previous }) :
    levelLine k stamp offset samples s = s.withLe (.searching (x.withRecord k { r with previous := previous })) := by
  rw [levelLine_examined searching record waiting later, examined]
  exact if_neg (by rw [waiting]; exact nofun)

theorem levelLine_rises {stamp : Line} {bytes : List Byte} {v : Byte} (waiting : r.status = .waiting)
    (later : 0 ≤ lineDiff stamp x.start) (offset : Nat) (value : bytes[r.probe]? = some v) (rises : Rises x.request.threshold r v) :
    levelLine k stamp offset (some bytes) s = updateRecord x k
      { r with status := .edge, edge := some { stamp := stamp, offset := offset }, previous := some v } s := by
  have examined := examine_rises stamp offset rises
  rw [levelLine_examined searching record waiting later, Option.bind_some, value, examined]
  exact if_pos rfl

end Line

end Sys2Proof.Machine
end

section
/-!
SUPPORT. The requests of the Leveling Engine: LEVEL_START (R82, R83) and LEVEL_ABORT (R89).
-/

namespace Sys2Proof.Machine

/-! ### The fields of LEVEL_START (11.3) -/

theorem readProbes_flatMap (lanes : List (Nat × Nat)) :
    (∀ x ∈ lanes, x.1 < 256 ∧ x.2 < 65536) → readProbes (lanes.flatMap probeBytes) = some lanes := by
  induction lanes with
  | nil => exact fun _ => rfl
  | cons x lanes ih =>
    intro fits
    rw [List.forall_mem_cons] at fits
    obtain ⟨⟨lane, probe⟩, others⟩ := fits
    have read : readProbes ((x :: lanes).flatMap probeBytes) = (readProbes (lanes.flatMap probeBytes)).map fun ps =>
        ((BitVec.ofNat 8 x.1).toNat, leValue (leBytes 2 x.2)) :: ps := rfl
    rw [read, ih others, byte_toNat lane, leValue_leBytes probe]
    rfl

/-- The fields of LEVEL_START are read back from their bytes (11.3). -/
theorem readLevel_fields {f : LevelFields} (h : (Request.levelStart f).fits) : readLevel (Request.levelStart f).fields = some f := by
  obtain ⟨reference, threshold, span, count, lanes⟩ := h
  have read : readLevel (Request.levelStart f).fields =
      match boolOfCode (BitVec.ofNat 8 (codeOfBool f.apply)).toNat, readProbes (f.lanes.flatMap probeBytes) with
      | some apply, some lanes =>
        if lanes.length = (BitVec.ofNat 8 f.lanes.length).toNat then some {
          reference := (BitVec.ofNat 8 f.reference).toNat, threshold := leValue (leBytes 2 f.threshold)
          span := leValue (leBytes 4 f.span), apply := apply, lanes := lanes }
        else none
      | _, _ => none := rfl
  rw [read, byte_toNat (codes_lt.1 f.apply), boolOfCode_codeOfBool, readProbes_flatMap _ lanes]
  dsimp only
  rw [if_pos (byte_toNat count).symm, byte_toNat reference, leValue_leBytes threshold, leValue_leBytes span]

/-! ### Its ranges (R82) -/

theorem laneOfNumber_iff {n : Nat} {k : Lane} : laneOfNumber n = some k ↔ n = laneNumber k := by
  constructor
  · intro h
    unfold laneOfNumber at h
    split at h <;> cases h <;> rfl
  · rintro rfl
    exact laneOfNumber_laneNumber k

theorem laneNumber_inj {j k : Lane} : laneNumber j = laneNumber k ↔ j = k := by
  rw [← laneOfNumber_iff, laneOfNumber_laneNumber, Option.some_inj]

theorem laneNumber_le (k : Lane) : laneNumber k ≤ 7 := by cases k <;> decide

theorem exists_laneNumber {n : Nat} (h : n ≤ 7) : ∃ k, n = laneNumber k := by
  interval_cases n
  exacts [⟨.l0, rfl⟩, ⟨.l1, rfl⟩, ⟨.l2, rfl⟩, ⟨.l3, rfl⟩, ⟨.l4, rfl⟩, ⟨.l5, rfl⟩, ⟨.l6, rfl⟩, ⟨.l7, rfl⟩]

theorem lanesValid_iff (ks : List Nat) :
    lanesValid ks = true ↔ 1 ≤ ks.length ∧ ks.length ≤ 8 ∧ ks.Nodup ∧ ∀ k ∈ ks, k ≤ 7 := by
  simp [lanesValid, and_assoc]

/-- Distinct lanes numbered 0 to 7 are at most 8. -/
theorem length_le_of_lanes {ks : List Nat} (distinct : ks.Nodup) (numbers : ∀ k ∈ ks, k ≤ 7) : ks.length ≤ 8 := by
  have sub : ks ⊆ List.range 8 := fun k mem => List.mem_range.mpr (Nat.lt_succ_of_le (numbers k mem))
  exact (List.length_range (n := 8)) ▸ (distinct.subperm sub).length_le

/-- What R82 asks of the fields of LEVEL_START. -/
def LevelFields.Good (f : LevelFields) (widthOf : Lane → Nat) : Prop :=
  1 ≤ f.lanes.length ∧ f.lanes.length ≤ 8 ∧ (f.lanes.map (·.1)).Nodup ∧ (∀ x ∈ f.lanes, x.1 ≤ 7)
    ∧ f.reference ≤ 7 ∧ f.reference ∈ f.lanes.map (·.1) ∧ f.threshold ≤ 255 ∧ 1 ≤ f.span ∧ f.span ≤ 65535
    ∧ ∀ k n, (laneNumber k, n) ∈ f.lanes → n < widthOf k

theorem LevelFields.inRange_iff (f : LevelFields) (widthOf : Lane → Nat) : f.inRange widthOf = true ↔ f.Good widthOf := by
  unfold LevelFields.inRange LevelFields.Good
  rw [Bool.and_eq_true, Bool.and_eq_true, lanesValid_iff, decide_eq_true_iff, List.length_map, List.forall_mem_map, List.all_eq_true]
  constructor
  · rintro ⟨⟨⟨nonempty, few, distinct, numbers⟩, reference, member, threshold, spanLow, spanHigh⟩, probes⟩
    refine ⟨nonempty, few, distinct, numbers, reference, member, threshold, spanLow, spanHigh, fun k n mem => ?_⟩
    have own := probes _ mem
    rw [laneOfNumber_laneNumber] at own
    exact of_decide_eq_true own
  · rintro ⟨nonempty, few, distinct, numbers, reference, member, threshold, spanLow, spanHigh, probes⟩
    refine ⟨⟨⟨nonempty, few, distinct, numbers⟩, reference, member, threshold, spanLow, spanHigh⟩, fun ⟨i, n⟩ mem => ?_⟩
    obtain ⟨k, rfl⟩ := exists_laneNumber (numbers _ mem)
    rw [laneOfNumber_laneNumber]
    exact decide_eq_true (probes k n mem)

/-! ### LEVEL_START (R82, R83) -/

theorem LevelingEngine.isSearching_iff {e : LevelingEngine} : e.isSearching = true ↔ ∃ x, e = .searching x := by
  cases e <;> simp [isSearching]

theorem unlessSearching_busy {s : State} {x : Search} (searching : s.le = .searching x) (act : RequestFrame → State → State × Answer)
    (f : RequestFrame) : unlessSearching act f s = (s, { code := .busy }) :=
  if_pos (LevelingEngine.isSearching_iff.mpr ⟨x, searching⟩)

theorem unlessSearching_idle {s : State} (idle : ∀ x, s.le ≠ .searching x) (act : RequestFrame → State → State × Answer)
    (f : RequestFrame) : unlessSearching act f s = act f s :=
  if_neg fun busy => (LevelingEngine.isSearching_iff.mp busy).elim idle

theorem levelStart_bad {p : Port} {f : LevelFields} {s : State} (bad : ¬f.Good fun k => (s.lane k).width) :
    levelStart p f s = (s, { code := .range }) := by
  unfold levelStart
  split
  · rfl
  · exact if_neg (mt (LevelFields.inRange_iff _ _).mp bad)

theorem levelStart_good {p : Port} {f : LevelFields} {s : State} {reference : Lane} (lane : laneOfNumber f.reference = some reference)
    (good : f.Good fun k => (s.lane k).width) : levelStart p f s =
      (if (startSearch p reference f s).anyWaiting then s.withLe (.searching (startSearch p reference f s))
        else endSearch (startSearch p reference f s) .edges s.mu.wln s, { code := .done }) := by
  unfold levelStart
  rw [lane]
  exact if_pos ((LevelFields.inRange_iff _ _).mpr good)

/-- In a set with distinct lanes each lane is found with its own probe. -/
theorem find_lane {lanes : List (Nat × Nat)} {i n : Nat} (distinct : (lanes.map (·.1)).Nodup) (mem : (i, n) ∈ lanes) :
    (lanes.find? fun x => decide (x.1 = i)) = some (i, n) := by
  induction lanes with
  | nil => cases mem
  | cons x lanes ih =>
    rw [List.map_cons, List.nodup_cons] at distinct
    obtain ⟨new, distinct⟩ := distinct
    rcases List.mem_cons.mp mem with rfl | mem
    · exact List.find?_cons_of_pos (decide_eq_true rfl)
    · have other : ¬decide (x.1 = i) = true := by
        rw [decide_eq_true_iff]
        rintro rfl
        exact new (List.mem_map_of_mem (f := (·.1)) mem)
      rw [List.find?_cons_of_neg (p := fun x : Nat × Nat => decide (x.1 = i)) other, ih distinct mem]

theorem startSearch_get (p : Port) (reference : Lane) (f : LevelFields) (s : State) (k : Lane) :
    (startSearch p reference f s).records.get k =
      (f.lanes.find? fun x => decide (x.1 = laneNumber k)).map fun x => startRecord (s.lane k) x.2 := by
  unfold startSearch
  rw [PerLane.get_map]
  cases f.lanes.find? _ <;> rfl

theorem startSearch_record {p : Port} {reference : Lane} {f : LevelFields} {s : State} {k : Lane} {n : Nat}
    (distinct : (f.lanes.map (·.1)).Nodup) (mem : (laneNumber k, n) ∈ f.lanes) :
    (startSearch p reference f s).records.get k = some (startRecord (s.lane k) n) := by
  rw [startSearch_get, find_lane distinct mem]
  rfl

/-- A new search waits exactly where some lane of its set is in RUN (R83). -/
theorem startSearch_awaits {p : Port} {reference : Lane} {f : LevelFields} {s : State} (distinct : (f.lanes.map (·.1)).Nodup) :
    (startSearch p reference f s).awaits ↔ ∃ k n, (laneNumber k, n) ∈ f.lanes ∧ (s.lane k).state = .active .run := by
  constructor
  · rintro ⟨k, r, record, waiting⟩
    rw [startSearch_get, Option.map_eq_some_iff] at record
    obtain ⟨⟨i, n⟩, found, rfl⟩ := record
    have named : decide (i = laneNumber k) = true := List.find?_some (p := fun x : Nat × Nat => decide (x.1 = laneNumber k)) found
    obtain rfl := of_decide_eq_true named
    refine ⟨k, n, List.mem_of_find?_eq_some found, ?_⟩
    by_contra stopped
    rw [startRecord, if_neg stopped] at waiting
    cases waiting
  · rintro ⟨k, n, mem, run⟩
    exact ⟨k, _, startSearch_record distinct mem, if_pos run⟩

/-- LEVEL_START from the claim holder with no search running acts on its fields (R82, R178). -/
theorem levelStart_acts {s : State} {p : Port} {f : LevelFields} (tag : Byte) (holder : s.shared.holder = some p)
    (idle : ∀ x, s.le ≠ .searching x) (fits : (Request.levelStart f).fits) :
    asHolder p (unlessSearching (withFields readLevel (levelStart p))) ((Request.levelStart f).frame tag) s = levelStart p f s := by
  rw [asHolder_holder holder, unlessSearching_idle idle, withFields_read (readLevel_fields fits)]

/-- A search started (R83): the engine alone changes, and the request is answered. -/
theorem levelStart_starts {s : State} {p : Port} {tag : Byte} {rest : List RequestFrame} {f : LevelFields} {reference : Lane}
    (settled : Settled s) (taken : Taken s p ((Request.levelStart f).frame tag) rest) (fits : (Request.levelStart f).fits)
    (holder : s.shared.holder = some p) (idle : ∀ x, s.le ≠ .searching x) (lane : laneOfNumber f.reference = some reference)
    (good : f.Good fun k => (s.lane k).width) (running : ∃ k n, (laneNumber k, n) ∈ f.lanes ∧ (s.lane k).state = .active .run) :
    exec (.levelStart p) s = .next (answered p rest (responseTo (.levelStart f) tag { code := .done })
      (s.withLe (.searching (startSearch p reference f s)))) := by
  have ⟨_, _, distinct, _⟩ := good
  have does : asHolder p (unlessSearching (withFields readLevel (levelStart p))) ((Request.levelStart f).frame tag) (requestLeft p rest s)
      = ((requestLeft p rest s).withLe (.searching (startSearch p reference f s)), { code := .done }) := by
    have waits : (startSearch p reference f (requestLeft p rest s)).anyWaiting = true :=
      (Search.anyWaiting_iff _).mpr ((startSearch_awaits distinct).mpr running)
    rw [levelStart_acts (s := requestLeft p rest s) tag holder idle fits, levelStart_good (s := requestLeft p rest s) lane good,
      if_pos waits]
    rfl
  show takeRequest p (some .levelStart) _ s = _
  rw [takeRequest_settled (k := some .levelStart) settled taken (Request.frame_kind _ tag) does rfl rfl (State.port_setPort_self _ _ _)
    fun q ne => State.port_setPort_ne _ _ ne]
  exact congrArg (fun u : State => Host.Outcome.next (u.withLe _)) (State.setPort_setPort s p _ _)

/-- Settles O40: the checks of R82 hold, and a lane in RUN keeps the search from ending at once. -/
theorem levelStartTaken : Obligations.LevelStartTaken := by
  unfold Obligations.LevelStartTaken
  intro s p tag rest f reference settled taken holder idle lane nonempty distinct member threshold spanLow spanHigh
    probes running records request
  have numbers : ∀ x ∈ f.lanes, x.1 ≤ 7 := fun x mem => by
    obtain ⟨k, own, _⟩ := probes x mem
    exact laneOfNumber_iff.mp own ▸ laneNumber_le k
  have small : f.reference ≤ 7 := laneOfNumber_iff.mp lane ▸ laneNumber_le reference
  have few : f.lanes.length ≤ 8 := by
    rw [← List.length_map (f := (·.1))]
    exact length_le_of_lanes distinct (List.forall_mem_map.mpr numbers)
  have widths : ∀ k n, (laneNumber k, n) ∈ f.lanes → n < (s.lane k).width := fun k n mem => by
    obtain ⟨j, own, below, _⟩ := probes _ mem
    rw [laneOfNumber_laneNumber] at own
    cases own
    exact below
  have fits : (Request.levelStart f).fits := by
    refine ⟨by omega, by omega, by omega, by omega, fun x mem => ?_⟩
    obtain ⟨_, _, _, probe⟩ := probes x mem
    exact ⟨Nat.lt_of_le_of_lt (numbers x mem) (by decide), probe⟩
  have started : startSearch p reference f s = { request := request, port := p, start := s.mu.wln, records := records } := by
    unfold startSearch
    congr 2
    funext k l
    cases f.lanes.find? _ <;> rfl
  rw [levelStart_starts settled taken fits holder idle lane
    ⟨nonempty, few, distinct, numbers, small, member, threshold, spanLow, spanHigh, widths⟩ running, started]

/-! ### A request that ends a search (R87 to R89) -/

/-- A request that ends a search without staging: DONE, the response delivered, LEVEL raised at the search's port. -/
theorem takeRequest_endsSearch {s : State} {p : Port} {r : Request} {tag : Byte} {rest : List RequestFrame}
    {act : RequestFrame → State → State × Answer} {e : LevelingEngine} {owner : Port} (settled : Settled s)
    (taken : Taken s p (r.frame tag) rest)
    (does : act (r.frame tag) (requestLeft p rest s) = (raiseAt owner .level ((requestLeft p rest s).withLe e), { code := .done })) :
    ∃ t, takeRequest p (some r.kind) act s = .next t ∧ t.le = e ∧ Delivered s t p rest (responseTo r tag { code := .done })
      ∧ Raised (fun q => decide (q = owner) && (s.port q).isUp) .level s t ∧ State.Agree [.le, .windows, .ports] s t := by
  set u := (requestLeft p rest s).withLe e with hu
  have own : u.port p = { s.port p with requests := rest } := State.port_setPort_self _ _ _
  have up : ∀ q, (u.port q).isUp = (s.port q).isUp := fun q => by
    rw [hu, State.port_withLe, requestLeft, State.port_setPort]
    split
    next same => rw [same]; rfl
    · rfl
  refine ⟨_, takeRequest_taken taken (Request.frame_kind r tag) does, ?_, delivered_of_raises settled taken.isUp ?_, fun q => ?_, ?_⟩
  · rw [settle_le]
    rfl
  · obtain ⟨pending, notice, kept⟩ := raiseWhere_kept (fun q c => decide (q = owner) && c.isUp) .level u p
    exact ⟨pending, notice, kept.trans (by rw [own])⟩
  · rw [settle_pendingSet, respond_pendingSet, raiseAt_raised owner .level u q]
    simp only [up]
    rw [hu, State.port_withLe, requestLeft_pendingSet]
  · have raised : State.Agree [.le, .windows, .ports] s (raiseAt owner .level u) :=
      ((agree_setPort s p _ (by decide)).trans (agree_withLe _ e (by decide))).trans (raiseWhere_agree _ _ _ (by decide))
    exact (raised.trans (agree_setPort _ p _ (by decide))).trans ((settle_agree _).mono (by decide))

theorem Raised.of_up {p : Port} {k : NoticeKind} {s t : State} (h : Raised (fun q => decide (q = p) && (s.port q).isUp) k s t)
    (up : (s.port p).isUp = true) : Raised (fun q => decide (q = p)) k s t := by
  intro q
  rw [h q]
  by_cases own : q = p
  · subst own
    simp only [up, Bool.and_true]
  · simp only [decide_eq_false own, Bool.false_and]

/-- Settles O43: an abort stages nothing, and without a search the request is answered STATE. -/
theorem levelAbortTaken : Obligations.LevelAbortTaken := by
  unfold Obligations.LevelAbortTaken
  intro s p tag rest settled taken holder
  have acts : asHolder p (withFields readNothing levelAbort) (Request.levelAbort.frame tag) (requestLeft p rest s)
      = levelAbort () (requestLeft p rest s) := by
    rw [asHolder_holder (by exact holder), withFields_read (x := ()) rfl]
  refine ⟨fun x searching => ?_, fun idle => ?_⟩
  · have aborts : levelAbort () (requestLeft p rest s)
        = (raiseAt x.port .level ((requestLeft p rest s).withLe (.done (x.finished .abort s.mu.wln))), { code := .done }) := by
      unfold levelAbort
      rw [show (requestLeft p rest s).le = .searching x from searching]
      dsimp only
      rw [endSearch_unstaged _ _ (.inl rfl)]
      rfl
    obtain ⟨t, run, le, delivered, raised, agree⟩ := takeRequest_endsSearch settled taken (acts.trans aborts)
    refine ⟨t, run, le.trans ?_, delivered, raised, agree⟩
    have results : x.results .abort = x.records.map fun _ r => r.map fun r =>
        { probe := r.probe, status := .aborted, edge := r.edge, newOffset := none } :=
      congrArg (PerLane.map · x.records) (funext fun k => funext fun r =>
        congrArg (Option.map · r) (funext (laneResult_abort x k)))
    rw [Search.finished, results]
  · have refused : levelAbort () (requestLeft p rest s) = (requestLeft p rest s, { code := .state }) := by
      unfold levelAbort
      split
      next x searching => exact absurd searching (idle x)
      · rfl
      · rfl
    exact takeRequest_answered settled taken (Request.frame_kind _ tag) (acts.trans refused)

/-- A search of which no lane is in RUN finds no edge: the reference is NOT_RUNNING, every other lane NO_REFERENCE (R83, R87). -/
theorem startSearch_stopped {p : Port} {reference : Lane} {f : LevelFields} {s : State} {i : Nat} (w : Line)
    (distinct : (f.lanes.map (·.1)).Nodup) (member : (laneNumber reference, i) ∈ f.lanes)
    (stopped : ∀ k n, (laneNumber k, n) ∈ f.lanes → (s.lane k).state ≠ .active .run) :
    let x := startSearch p reference f s
    isFound ((x.results .edges).get reference) = false
    ∧ ∀ k n, (laneNumber k, n) ∈ f.lanes → (x.finished .edges w).results.get k = some {
        probe := n, status := if k = reference then .notRunning else .noReference, edge := none, newOffset := none } := by
  intro x
  have record : ∀ k n, (laneNumber k, n) ∈ f.lanes →
      x.records.get k = some { probe := n, status := .notRunning, previous := none, edge := none } := fun k n mem => by
    rw [startSearch_record distinct mem, startRecord, if_neg (stopped k n mem)]
  have noEdge := record reference i member
  refine ⟨?_, fun k n mem => ?_⟩
  · rw [Bool.eq_false_iff]
    intro found
    obtain ⟨r, result, status⟩ := isFound_iff.mp found
    obtain ⟨q, own, rfl⟩ := Option.map_eq_some_iff.mp ((x.results_get .edges reference).symm.trans result)
    exact Bool.false_ne_true ((x.referenceFound_noEdge noEdge nofun).symm.trans (referenceFound_of_found own status).2)
  · obtain ⟨ofReference, ofOther⟩ := (x.finished_endedBy w (cause := .edges) nofun).withoutReference _ noEdge nofun
    by_cases own : k = reference
    · subst own
      cases (record k n mem).symm.trans noEdge
      rw [if_pos rfl]
      exact ofReference
    · rw [if_neg own]
      exact ofOther k _ own (record k n mem)

/-- Settles O41: BUSY before the fields, RANGE by them, and a search that ends as it starts. -/
theorem levelStartRefusedOrEnded : Obligations.LevelStartRefusedOrEnded := by
  unfold Obligations.LevelStartRefusedOrEnded
  intro s p tag rest f settled taken fits holder good
  have kind : ((Request.levelStart f).frame tag).requestKind = some .levelStart := Request.frame_kind _ tag
  refine ⟨fun x searching => ?_, fun idle bad => ?_, fun idle ok stopped => ?_⟩
  · exact takeRequest_answered settled taken kind ((asHolder_holder (s := requestLeft p rest s) holder _).trans
      (unlessSearching_busy (s := requestLeft p rest s) searching _ _))
  · exact takeRequest_answered settled taken kind ((levelStart_acts (s := requestLeft p rest s) tag holder idle fits).trans
      (levelStart_bad (s := requestLeft p rest s) bad))
  · have ⟨_, _, distinct, _, small, member, _⟩ := ok
    obtain ⟨reference, number⟩ := exists_laneNumber small
    obtain ⟨⟨_, i⟩, inSet, rfl⟩ := List.mem_map.mp member
    set x := startSearch p reference f s
    obtain ⟨unstaged, results⟩ := startSearch_stopped (p := p) s.mu.wln distinct (number ▸ inSet) stopped
    have ends : asHolder p (unlessSearching (withFields readLevel (levelStart p))) ((Request.levelStart f).frame tag) (requestLeft p rest s)
        = (raiseAt p .level ((requestLeft p rest s).withLe (.done (x.finished .edges s.mu.wln))), { code := .done }) := by
      have none : ¬(startSearch p reference f (requestLeft p rest s)).anyWaiting = true := fun waits => by
        obtain ⟨k, n, mem, run⟩ := (startSearch_awaits distinct).mp ((Search.anyWaiting_iff _).mp waits)
        exact stopped k n mem run
      rw [levelStart_acts (s := requestLeft p rest s) tag holder idle fits,
        levelStart_good (s := requestLeft p rest s) (laneOfNumber_iff.mpr number) ok, if_neg none,
        endSearch_unstaged (x := startSearch p reference f (requestLeft p rest s)) _ _ (.inr unstaged)]
      rfl
    obtain ⟨t, run, le, delivered, raised, agree⟩ := takeRequest_endsSearch settled taken ends
    refine ⟨t, _, run, le, rfl, rfl, rfl, rfl, number.symm, fun k n mem => ⟨_, results k n mem, rfl, rfl, ?_⟩, delivered,
      raised.of_up taken.isUp, agree⟩
    have same : laneNumber k = f.reference ↔ k = reference := by rw [number, laneNumber_inj]
    simp only [same]

end Sys2Proof.Machine
end
section
/-!
SUPPORT. A lane that leaves RUN while a search runs (R85), and the end of a search by span (R86). The events in which a lane leaves RUN go
on with seals, commits and missing lines: these raise other kinds alone, and a search that does not wait for the lane passes them by.
-/

namespace Sys2Proof.Machine

/-! ### The kinds that an operation can raise -/

/-- Outside a list of kinds, the same kinds are pending at every port. -/
def NoticesWithin (A : List NoticeKind) (s t : State) : Prop :=
  ∀ n, n ∉ A → ∀ p, NoticeSet.has (t.port p).pendingSet n = NoticeSet.has (s.port p).pendingSet n

namespace NoticesWithin

variable {A : List NoticeKind} {s t u : State}

theorem of_ports (h : t.ports = s.ports) : NoticesWithin A s t := fun _ _ p => by
  rw [State.port, h]
  rfl

theorem refl (A : List NoticeKind) (s : State) : NoticesWithin A s s := .of_ports rfl

theorem trans (h : NoticesWithin A s t) (g : NoticesWithin A t u) : NoticesWithin A s u :=
  fun n out p => (g n out p).trans (h n out p)

theorem ite {c : Prop} [Decidable c] (h : NoticesWithin A s t) (g : NoticesWithin A s u) : NoticesWithin A s (if c then t else u) :=
  iteInduction (motive := NoticesWithin A s) (fun _ => h) fun _ => g

/-- A port replaced by one with the same pending set. -/
theorem setPort (h : NoticesWithin A s t) {p : Port} {c : ConsumerPort} (pending : c.pendingSet = (t.port p).pendingSet) :
    NoticesWithin A s (t.setPort p c) := by
  intro n out q
  rw [← h n out q, State.port_setPort]
  split
  next own => rw [own, pending]
  · rfl

/-- One of the listed kinds raised. -/
theorem raiseWhere (h : NoticesWithin A s t) (sel : Port → ConsumerPort → Bool) {k : NoticeKind} (listed : k ∈ A) :
    NoticesWithin A s (raiseWhere sel k t) := by
  intro n out p
  have other : n ≠ k := fun own => out (own ▸ listed)
  rw [← h n out p, raiseWhere_pendingSet]
  split
  · rw [NoticeSet.has_add, decide_eq_false other, Bool.false_or]
  · rfl

end NoticesWithin

section Pressure

variable {A : List NoticeKind} (listed : .pressure ∈ A)

include listed

theorem judgePressure_notices (s : State) : NoticesWithin A s (judgePressure s) :=
  .ite (.ite ((NoticesWithin.of_ports rfl).raiseWhere _ listed) (.refl A s))
    (.ite ((NoticesWithin.of_ports rfl).raiseWhere _ listed) (.refl A s))

theorem freeSlot_notices (slot : Nat) (s : State) : NoticesWithin A s (freeSlot slot s) := judgePressure_notices listed _

omit listed in
theorem withBsc_notices (s : State) (x : BandStore) : NoticesWithin A s (s.withBsc x) := .of_ports rfl

omit listed in
theorem matchBand_notices (slot : Nat) (b : Band) (s : State) : NoticesWithin A s (matchBand slot b s).1 := by
  suffices fold : ∀ (ids : List Nat) (acc : State × Nat), NoticesWithin A acc.1 (ids.foldl (matchWindow slot b) acc).1 from fold _ (s, 0)
  intro ids
  induction ids with
  | nil => exact fun acc => .refl A _
  | cons id ids ih =>
    intro acc
    refine .trans ?_ (ih _)
    unfold matchWindow
    split
    · exact .refl A _
    next w _ =>
      split
      · split
        · exact (NoticesWithin.refl A _).setPort (setQueue_pendingSet _ _ _)
        · exact NoticesWithin.setPort (t := putWindow id { w with gap := true, dropped := w.dropped + 1 } acc.1) (.of_ports rfl) rfl
      · exact .refl A _

theorem sealBand_notices (k : Lane) (stop : Bool) (s : State) : NoticesWithin A s (sealBand k stop s) := by
  unfold sealBand
  split
  · exact .refl A s
  · split
    · exact .of_ports rfl
    next slot _ _ _ _ =>
      have matched : ∀ b, NoticesWithin A s (matchBand slot b
          (clearFilling k (s.withBsc { s.bsc with sealSequence := s.bsc.sealSequence + 1 }))).1 := fun b =>
        ((withBsc_notices s _).trans (withBsc_notices _ _)).trans (matchBand_notices _ _ _)
      dsimp only
      exact .ite ((matched _).trans (freeSlot_notices listed _ _)) ((matched _).trans (withBsc_notices _ _))

theorem extendBand_notices (slot : Nat) (b : Band) (x : Placement) (s : State) : NoticesWithin A s (extendBand slot b x s) := by
  unfold extendBand
  extract_lets t
  have written : NoticesWithin A s t := by
    unfold t
    split <;> exact .of_ports rfl
  exact .ite (written.trans (sealBand_notices listed _ _ _)) written

theorem openBand_notices (x : Placement) (s : State) : NoticesWithin A s (openBand x s) := by
  unfold openBand
  split
  · exact .of_ports rfl
  · exact ((withBsc_notices s _).trans (judgePressure_notices listed _)).trans (extendBand_notices listed _ _ _ _)

theorem place_notices (x : Placement) (s : State) : NoticesWithin A s (place x s) := by
  have next := (sealBand_notices listed x.lane false s).trans (openBand_notices listed x _)
  unfold place
  split
  · exact openBand_notices listed x s
  · split
    · exact next
    · exact .ite (extendBand_notices listed _ _ x s) next

end Pressure

theorem completeCommit_notices {A : List NoticeKind} (listed : .commit ∈ A) (k : Lane) (s : State) :
    NoticesWithin A s (completeCommit k s) := by
  unfold completeCommit
  split
  · exact .refl A s
  · exact .ite ((NoticesWithin.of_ports rfl).raiseWhere _ listed) (.refl A s)

/-! ### What passes a search by -/

/-- What an event of a lane leaves to the search: the engine, LEVEL at every port, and the other lanes. -/
structure SearchPassed (k : Lane) (s t : State) : Prop where
  le : t.le = s.le
  level : ∀ p, NoticeSet.has (t.port p).pendingSet .level = NoticeSet.has (s.port p).pendingSet .level
  others : ∀ j, j ≠ k → t.lane j = s.lane j

/-- No search waits for the lane. -/
def NotAwaited (k : Lane) (e : LevelingEngine) : Prop := ∀ x r, e = .searching x → x.records.get k = some r → r.status ≠ .waiting

namespace SearchPassed

variable {k : Lane} {s t u : State}

theorem refl (k : Lane) (s : State) : SearchPassed k s s := ⟨rfl, fun _ => rfl, fun _ _ => rfl⟩

theorem trans (h : SearchPassed k s t) (g : SearchPassed k t u) : SearchPassed k s u :=
  ⟨g.le.trans h.le, fun p => (g.level p).trans (h.level p), fun j ne => (g.others j ne).trans (h.others j ne)⟩

theorem ite {c : Prop} [Decidable c] (h : SearchPassed k s t) (g : SearchPassed k s u) : SearchPassed k s (if c then t else u) :=
  iteInduction (motive := SearchPassed k s) (fun _ => h) fun _ => g

/-- An operation that touches neither the engine nor a lane, and raises other kinds alone. -/
theorem of_notices {A : List NoticeKind} {B : List Part} (notices : NoticesWithin A s t) (agree : State.Agree B s t)
    (other : .level ∉ A := by decide) (le : .le ∉ B := by decide) (lanes : .lanes ∉ B := by decide) : SearchPassed k s t :=
  ⟨agree.le le, notices _ other, fun j _ => State.lane_congr (agree.lanes lanes) j⟩

end SearchPassed

theorem setLane_passed (k : Lane) (l : LaneFrontEnd) (s : State) : SearchPassed k s (s.setLane k l) :=
  ⟨rfl, fun _ => rfl, fun _ ne => State.lane_setLane_ne s l ne⟩

theorem updateLane_passed (k : Lane) (f : LaneFrontEnd → LaneFrontEnd) (s : State) : SearchPassed k s (updateLane k f s) :=
  setLane_passed k _ s

theorem sealBand_passed (k : Lane) (stop : Bool) (s : State) : SearchPassed k s (sealBand k stop s) :=
  .of_notices (A := [.pressure]) (sealBand_notices (by decide) k stop s) (sealBand_agree k stop s)

theorem completeCommit_passed (k : Lane) (s : State) : SearchPassed k s (completeCommit k s) :=
  .of_notices (A := [.commit]) (completeCommit_notices (by decide) k s)
    (completeCommit_agree (A := [.cb, .ports]) k s (by decide) (by decide))

theorem settle_passed (k : Lane) (s : State) : SearchPassed k s (settle s) :=
  ⟨settle_le s, fun p => by rw [settle_pendingSet], fun j _ => State.lane_congr (settle_lanes s) j⟩

/-- A line of a lane for which no search waits leaves the engine alone (R84). -/
theorem levelLine_notAwaited {k : Lane} {s : State} (free : NotAwaited k s.le) (stamp : Line) (offset : Nat)
    (samples : Option (List Byte)) : levelLine k stamp offset samples s = s := by
  by_cases searching : ∃ x, s.le = .searching x
  · obtain ⟨x, searching⟩ := searching
    cases record : x.records.get k with
    | none => exact levelLine_noRecord searching record _ _ _
    | some r => exact levelLine_ignored searching record (.inl (free x r searching record)) _ _
  · exact levelLine_idle (not_exists.mp searching) _ _ _ _

section Missing

variable {k : Lane} {s : State}

theorem runLine_passed (w : Line) (offset : Nat) (b : LineBody) (free : NotAwaited k s.le) : SearchPassed k s (runLine k w offset b s) := by
  unfold runLine
  extract_lets stamp early
  refine .ite (updateLane_passed k _ s) ?_
  split
  · exact updateLane_passed k _ s
  · extract_lets placed l bytes stored
    have passed : SearchPassed k s stored := (updateLane_passed k _ s).trans
      (.of_notices (A := [.pressure]) (place_notices (by decide) _ _) (place_agree _ _))
    rw [levelLine_notAwaited (passed.le.symm ▸ free)]
    exact passed

theorem lineEvent_passed (w : Line) (offset : Nat) (mode : ActiveMode) (b : LineBody) (free : NotAwaited k s.le) :
    SearchPassed k s (lineEvent k w offset mode b s) := by
  have begun : SearchPassed k s (lineBegun k s) := (completeCommit_passed k s).trans (updateLane_passed k _ _)
  cases mode with
  | run => exact begun.trans (runLine_passed w offset b (begun.le.symm ▸ free))
  | check => exact begun.trans (setLane_passed k _ _)

theorem removeOldest_passed (b : LineBody) (free : NotAwaited k s.le) : SearchPassed k s (removeOldest k b s) := by
  cases fifo : (s.lane k).fifo with
  | nil =>
    rw [removeOldest_empty fifo]
    exact .refl k s
  | cons e rest =>
    rw [removeOldest_cons fifo]
    have event := (setLane_passed k { s.lane k with fifo := rest, drain := (s.lane k).drain - 1 } s).trans
      (lineEvent_passed e.wln e.offset e.mode b free)
    exact .ite (event.trans (sealBand_passed k false _)) event

theorem loseOldest_passed (free : NotAwaited k s.le) : SearchPassed k s (loseOldest k s) :=
  (removeOldest_passed .missing free).trans (setLane_passed k _ _)

end Missing

theorem foldl_passed {k : Lane} {f : State → State} (h : ∀ s, NotAwaited k s.le → SearchPassed k s (f s)) (es : List FifoEntry) :
    ∀ s, NotAwaited k s.le → SearchPassed k s (es.foldl (fun s _ => f s) s) := by
  induction es with
  | nil => exact fun s _ => .refl k s
  | cons e es ih => exact fun s free => (h s free).trans (ih _ ((h s free).le.symm ▸ free))

theorem flushMissing_passed {k : Lane} {s : State} (es : List FifoEntry) (free : NotAwaited k s.le) :
    SearchPassed k s (flushMissing k es.length s) := by
  rw [flushMissing_length]
  exact foldl_passed (fun _ => removeOldest_passed .missing) es s free

theorem sourceActions_passed {k : Lane} {s : State} (src : Source) (free : NotAwaited k s.le) :
    SearchPassed k s (sourceActions k src s) := by
  by_cases same : src = (s.lane k).source
  · rw [sourceActions_same same]
    exact .refl k s
  · rw [sourceActions_changed same]
    have lost := foldl_passed (fun _ => loseOldest_passed) (s.lane k).fifo s free
    exact (lost.trans (setLane_passed k _ _)).trans (sealBand_passed k false _)

/-! ### A lane that leaves RUN (R85) -/

section Leaves

variable {k : Lane} {s : State} {x : Search} {r : SearchRecord} (searching : s.le = .searching x) (record : x.records.get k = some r)

include searching record

theorem levelLeavesRun_passes (other : r.status ≠ .waiting) : levelLeavesRun k s = s := by
  rw [levelLeavesRun, searching]
  dsimp only
  rw [record]
  exact if_neg other

theorem levelLeavesRun_waiting (waiting : r.status = .waiting) :
    levelLeavesRun k s = updateRecord x k { r with status := .notRunning } s := by
  rw [levelLeavesRun, searching]
  dsimp only
  rw [record]
  exact if_pos waiting

/-- A lane that has left RUN is waited for no longer (R85). -/
theorem levelLeavesRun_notAwaited : NotAwaited k (levelLeavesRun k s).le := by
  intro y q searchingOn own
  by_cases waiting : r.status = .waiting
  · rw [levelLeavesRun_waiting searching record waiting] at searchingOn
    by_cases awaits : (x.withRecord k { r with status := .notRunning }).awaits
    · rw [updateRecord_awaits s awaits] at searchingOn
      cases searchingOn
      rw [Search.withRecord, PerLane.get_set_self] at own
      cases own
      exact nofun
    · rw [updateRecord_ends s awaits] at searchingOn
      cases searchingOn
  · rw [levelLeavesRun_passes searching record waiting, searching] at searchingOn
    cases searchingOn
    cases record.symm.trans own
    exact waiting

end Leaves

end Sys2Proof.Machine
end

section
/-!
SUPPORT. What an event in which a lane leaves RUN makes of the search (R85), and the statement on the course of a search.
-/

namespace Sys2Proof.Machine

/-! ### From the event to the engine and on -/

/-- What happens at a lane before the Leveling Engine is told that the lane leaves RUN. -/
structure BeforeTold (k : Lane) (s b : State) : Prop where
  passed : SearchPassed k s b
  raises : OnlyRaises s b
  mu : b.mu = s.mu

namespace BeforeTold

variable {k : Lane} {s t u : State}

theorem trans (h : BeforeTold k s t) (g : BeforeTold k t u) : BeforeTold k s u :=
  ⟨h.passed.trans g.passed, h.raises.trans g.raises, g.mu.trans h.mu⟩

theorem orSelf {c : Prop} [Decidable c] (h : BeforeTold k s t) (g : BeforeTold k t u) : BeforeTold k s (if c then u else t) :=
  iteInduction (motive := BeforeTold k s) (fun _ => h.trans g) fun _ => h

end BeforeTold

theorem setLane_beforeTold (k : Lane) (l : LaneFrontEnd) (s : State) : BeforeTold k s (s.setLane k l) :=
  ⟨setLane_passed k l s, .of_ports rfl, rfl⟩

theorem raiseUp_lane_beforeTold (k : Lane) (s : State) : BeforeTold k s (raiseUp .lane s) where
  passed := .of_notices (A := [.lane]) (B := [.ports]) ((NoticesWithin.refl _ s).raiseWhere _ (by decide))
    (raiseWhere_agree _ _ _ (by decide))
  raises := raiseWhere_raises _ _ s
  mu := rfl

theorem completeCommit_beforeTold (k : Lane) (s : State) : BeforeTold k s (completeCommit k s) where
  passed := completeCommit_passed k s
  raises := completeCommit_raises k s
  mu := (completeCommit_agree (A := [.cb, .ports]) k s (by decide) (by decide)).mu (by decide)

/-- A change of state by which a lane leaves RUN ends with the engine being told (R48, R79, R85). -/
theorem changeState_leavesRun {k : Lane} {new : LaneState} {s : State} (run : (s.lane k).state = .active .run)
    (leaves : new ≠ .active .run) : ∃ b, changeState k new s = levelLeavesRun k b ∧ BeforeTold k s b := by
  unfold changeState
  extract_lets old a b c
  exact ⟨c, if_pos ⟨run, leaves⟩,
    ((setLane_beforeTold k _ s).orSelf (raiseUp_lane_beforeTold k _)).orSelf (completeCommit_beforeTold k _)⟩

/-! ### What becomes of the search (R85) -/

/-- No LEVEL is raised, and no other lane changes. -/
def GoesOn (k : Lane) (s t : State) : Prop :=
  (∀ p, NoticeSet.has (t.port p).pendingSet .level = NoticeSet.has (s.port p).pendingSet .level)
    ∧ ∀ j, j ≠ k → t.lane j = s.lane j

theorem SearchPassed.goesOn {k : Lane} {s t : State} (h : SearchPassed k s t) : GoesOn k s t := ⟨h.level, h.others⟩

/-- A search ended by EDGES in an event of a lane: its results, the offsets staged at other lanes, and LEVEL (R85, R87, R88). -/
def EndedBeside (k : Lane) (y : Search) (s t : State) : Prop :=
  ∃ f, t.le = .done f ∧ EndedBy y .edges s.mu.wln f
    ∧ (∀ j q n, y.request.apply = true → f.results.get j = some q → q.status = .found → q.newOffset = some n →
        j ≠ k ∧ t.lane j = { s.lane j with pendingOffset := some n })
    ∧ (∀ j, j ≠ k → y.request.apply = false ∨ (∀ q, f.results.get j = some q → q.status ≠ .found) → t.lane j = s.lane j)
    ∧ ∀ p, NoticeSet.has (t.port p).pendingSet .level
        = (NoticeSet.has (s.port p).pendingSet .level || (decide (p = y.port) && (s.port p).isUp))

/-- What becomes of the search in an event by which a lane of its set leaves RUN (R85). -/
structure RunLeft (k : Lane) (x : Search) (r : SearchRecord) (s t : State) : Prop where
  passed : r.status ≠ .waiting → t.le = s.le ∧ GoesOn k s t
  goesOn : r.status = .waiting → (x.withRecord k { r with status := .notRunning }).awaits →
    t.le = .searching (x.withRecord k { r with status := .notRunning }) ∧ GoesOn k s t
  ended : r.status = .waiting → ¬(x.withRecord k { r with status := .notRunning }).awaits →
    EndedBeside k (x.withRecord k { r with status := .notRunning }) s t

/-- A raised kind is pending where it was, and at the selected ports. -/
theorem Raised.has {sel : Port → Bool} {k : NoticeKind} {s t : State} (h : Raised sel k s t) (p : Port) :
    NoticeSet.has (t.port p).pendingSet k = (NoticeSet.has (s.port p).pendingSet k || sel p) := by
  rw [h p]
  cases sel p with
  | true => rw [if_pos rfl, NoticeSet.has_add, decide_eq_true rfl, Bool.true_or, Bool.or_true]
  | false => rw [if_neg Bool.false_ne_true, Bool.or_false]

/-- The end of a search in which the lane is NOT_RUNNING, inside an event of that lane. -/
theorem endSearch_beside {k : Lane} {y : Search} {q : SearchRecord} {s b t : State} (record : y.records.get k = some q)
    (stopped : q.status = .notRunning) (before : BeforeTold k s b) (after : SearchPassed k (endSearch y .edges b.mu.wln b) t) :
    EndedBeside k y s t := by
  refine ⟨y.finished .edges s.mu.wln, ?_, y.finished_endedBy _ nofun, fun j a n apply result found offset => ?_, fun j ne kept => ?_,
    fun p => ?_⟩
  · rw [after.le, endSearch_le, before.mu]
  · have ne : j ≠ k := by
      rintro rfl
      have own : (y.results .edges).get j = some (laneResult y .edges j q) := by rw [Search.results_get, record, Option.map_some]
      cases own.symm.trans result
      exact laneResult_notRunning y .edges j q stopped found
    exact ⟨ne, by rw [after.others j ne, endSearch_lane_found _ b apply result found, before.passed.others j ne, offset]⟩
  · rw [after.others j ne, endSearch_lane_kept _ b kept, before.passed.others j ne]
  · rw [after.level, (endSearch_raised y .edges b.mu.wln b).has, before.passed.level, before.raises.isUp]

/-- An event by which a lane of the set leaves RUN, from what happens before the engine is told and after it (R85). -/
theorem runLeft_of_told {k : Lane} {x : Search} {r : SearchRecord} {s b t : State} (searching : s.le = .searching x)
    (record : x.records.get k = some r) (before : BeforeTold k s b)
    (after : NotAwaited k (levelLeavesRun k b).le → SearchPassed k (levelLeavesRun k b) t) : RunLeft k x r s t := by
  have told : b.le = .searching x := before.passed.le.trans searching
  replace after := after (levelLeavesRun_notAwaited told record)
  constructor
  case passed =>
    intro other
    rw [levelLeavesRun_passes told record other] at after
    have passed := before.passed.trans after
    exact ⟨passed.le, passed.goesOn⟩
  case goesOn =>
    intro waiting awaits
    rw [levelLeavesRun_waiting told record waiting, updateRecord_awaits b awaits] at after
    have stays : GoesOn k b t := ⟨after.level, after.others⟩
    exact ⟨after.le, fun p => (stays.1 p).trans (before.passed.level p), fun j ne => (stays.2 j ne).trans (before.passed.others j ne)⟩
  case ended =>
    intro waiting ends
    rw [levelLeavesRun_waiting told record waiting, updateRecord_ends b ends] at after
    exact endSearch_beside (PerLane.get_set_self _ _ _) rfl before after

section Events

variable {k : Lane} {x : Search} {r : SearchRecord} {s : State} (searching : s.le = .searching x) (record : x.records.get k = some r)
  (run : (s.lane k).state = .active .run)

include searching record run

/-- Link loss: the lane goes to FAULT, and its FIFO is flushed (R65, R85). -/
theorem loseLaneLink_runLeft (up : (s.lane k).linkUp = true) : RunLeft k x r s (settle (loseLaneLink k s)) := by
  set a := s.setLane k (s.lane k).unlinked
  have state : (a.lane k).state = .active .run := by
    rw [State.lane_setLane_self]
    exact run
  obtain ⟨b, told, before⟩ := changeState_leavesRun (new := .fault .run) state nofun
  refine runLeft_of_told searching record ((setLane_beforeTold k _ s).trans before) fun free => ?_
  rw [loseLaneLink_up up, faultLane_active state, told]
  exact (flushMissing_passed _ free).trans (settle_passed k _)

/-- A mode and source item that takes the lane out of RUN: the change of mode, then that of the source (R48 to R51, R85). -/
theorem applyRepeatStart_runLeft {m : LaneMode} {src : Source} (item : (s.lane k).pendingMode = some (m, src))
    (leaves : m ≠ .active .run) : RunLeft k x r s (applyRepeatStart k s) := by
  set new := (s.lane k).state.afterMode (s.lane k).linkUp m with hn
  have left : new ≠ .active .run := by
    rw [hn, run]
    cases m with
    | off => exact nofun
    | active a => exact fun same => leaves (by cases same; rfl)
  have state : ((s.setLane k (s.lane k).itemsTaken).lane k).state = .active .run := by
    rw [State.lane_setLane_self]
    exact run
  obtain ⟨b, told, before⟩ := changeState_leavesRun state left
  refine runLeft_of_told searching record ((setLane_beforeTold k _ s).trans before) fun free => ?_
  have entered : SearchPassed k (levelLeavesRun k b) (modeEntered k new s) := by
    rw [modeEntered, told]
    exact updateLane_passed k _ _
  have acted : SearchPassed k (levelLeavesRun k b) (modeSettled k new s) :=
    .ite (entered.trans (sealBand_passed k false _)) entered
  rw [applyRepeatStart_item item]
  exact acted.trans (sourceActions_passed src (acted.le.symm ▸ free))

end Events

/-! ### The obligation -/

theorem levelSpan_before {s : State} {x : Search} {w : Line} (searching : s.le = .searching x)
    (early : lineDiff w x.start < x.request.span) : levelSpan w s = s := by
  rw [levelSpan, searching]
  exact if_neg (by omega)

theorem levelSpan_reached {s : State} {x : Search} {w : Line} (searching : s.le = .searching x)
    (reached : (x.request.span : Int) ≤ lineDiff w x.start) : levelSpan w s = endSearch x .span w s := by
  rw [levelSpan, searching]
  exact if_pos reached

/-- Settles O42: the end by span, the lines of the course, and the lanes that leave RUN. -/
theorem spanEndTaken : Obligations.SpanEndTaken := by
  unfold Obligations.SpanEndTaken
  refine ⟨fun s x searching => ⟨fun early settled => ?_, fun reached => ?_⟩,
    fun s k stamp offset samples => ⟨fun idle => levelLine_idle idle k stamp offset samples, fun x searching =>
      ⟨fun none => levelLine_noRecord searching none stamp offset samples, fun r record => ?_⟩⟩,
    fun s x k r searching record run => ⟨fun up => ?_, fun m src item leaves => ?_⟩⟩
  · show Host.Outcome.next (settle (levelSpan s.mu.wln s)) = _
    rw [levelSpan_before searching early, settle_settled settled]
  · obtain ⟨f, le, ended, staged, kept, raised, agree⟩ := endSearch_ended x (cause := .span) s.mu.wln s nofun
    set u := endSearch x .span s.mu.wln s
    have lane : ∀ k, (settle u).lane k = u.lane k := State.lane_congr (settle_lanes u)
    refine ⟨settle u, f, congrArg (fun v => Host.Outcome.next (settle v)) (levelSpan_reached searching reached), (settle_le u).trans le,
      ended, fun k r n apply result found offset => (lane k).trans (staged k r n apply result found offset),
      fun k no => (lane k).trans (kept k no), fun q => (settle_pendingSet u q).trans (raised q),
      (agree.mono (by decide)).trans ((settle_agree u).mono (by decide))⟩
  · intro kept
    refine ⟨fun ignored => levelLine_ignored searching record ignored offset samples, fun waiting later => ⟨fun short => ?_, ?_⟩⟩
    · refine levelLine_kept searching record waiting later offset ?_
      have absent : samples.bind (·[r.probe]?) = none := by
        rw [Option.bind_eq_none_iff]
        exact fun bytes line => List.getElem?_eq_none (short bytes line)
      rw [absent]
      rfl
    · rintro bytes v rfl value rise
      refine ⟨fun level => ?_, fun rises => ?_⟩
      · refine levelLine_kept searching record waiting later offset ?_
        rw [Option.bind_some, value]
        exact examine_level stamp offset level
      · rw [levelLine_rises searching record waiting later offset value rises]
        exact ⟨fun awaits => updateRecord_awaits s awaits, fun ends => updateRecord_ends s ends ▸ endSearch_ended _ s.mu.wln s nofun⟩
  · have lost := loseLaneLink_runLeft searching record run up
    exact ⟨_, rfl, lost.passed, fun waiting => ⟨lost.goesOn waiting, lost.ended waiting⟩⟩
  · have left := applyRepeatStart_runLeft searching record run item leaves
    exact ⟨left.passed, fun waiting => ⟨left.goesOn waiting, left.ended waiting⟩⟩

end Sys2Proof.Machine
end

section
/-!
SUPPORT. The window table with the delivery queues (R113, R118, R119, R134): what an event may do to them without opening, closing or
handing over a window, and that the table and the queues then stay in agreement.
-/

namespace Sys2Proof.Machine

/-! ### Events that leave the standing of every window -/

/-- Of a record what the queues depend on: the window's parties, its class and its state (R113, R114). -/
abbrev Window.standing (w : Window) : Port × Port × Bool × DeliveryClass × Option Nat := (w.owner, w.origin, w.adopted, w.cls, w.closing)

/-- An entry may stand in a queue of a class: its window is OPEN and of that class (R118, R137). -/
def State.Fits (s : State) (e : Entry) (cls : DeliveryClass) : Prop :=
  e.cls = cls ∧ ∃ w, s.window e.window = some w ∧ w.closing = none ∧ w.cls = cls

/-- A strip in flight, if there is one, is that of an OPEN window. -/
def State.OpenStrip (s : State) (strip : Option Nat) : Prop := ∀ id, strip = some id → ∃ w, s.window id = some w ∧ w.closing = none

/-- No window was opened, closed or handed over, and no strip of a CLOSING window ended: entries may have moved, left, or joined for OPEN
windows, strips of OPEN windows may have begun or ended, and GAP and the counters of a window may have changed. -/
structure Redelivered (s t : State) : Prop where
  sorted : tableSorted s.windows → tableSorted t.windows
  standing : ∀ id, (t.window id).map Window.standing = (s.window id).map Window.standing
  queued : ∀ p cls, ∀ e ∈ (t.port p).queue cls, s.Fits e cls ∨ ∃ q, e ∈ (s.port q).queue cls
  strip : ∀ p, (t.port p).stripWindow = (s.port p).stripWindow
    ∨ s.OpenStrip (s.port p).stripWindow ∧ s.OpenStrip (t.port p).stripWindow
  up : ∀ p, (s.port p).isUp = true → (t.port p).isUp = true

/-- A window's record as it stood before, from the record as it stands now. -/
theorem Redelivered.before {s t : State} (h : Redelivered s t) {id : Nat} {v : Window} (now : t.window id = some v) :
    ∃ w, s.window id = some w ∧ v.owner = w.owner ∧ v.origin = w.origin ∧ v.adopted = w.adopted ∧ v.cls = w.cls ∧ v.closing = w.closing := by
  have same := h.standing id
  rw [now, Option.map_some, eq_comm, Option.map_eq_some_iff] at same
  obtain ⟨w, old, standing⟩ := same
  simp only [Window.standing, Prod.mk.injEq] at standing
  obtain ⟨owner, origin, adopted, cls, closing⟩ := standing
  exact ⟨w, old, owner.symm, origin.symm, adopted.symm, cls.symm, closing.symm⟩

theorem Redelivered.after {s t : State} (h : Redelivered s t) {id : Nat} {w : Window} (old : s.window id = some w) :
    ∃ v, t.window id = some v ∧ v.cls = w.cls ∧ v.closing = w.closing := by
  have same := h.standing id
  rw [old, Option.map_some, Option.map_eq_some_iff] at same
  obtain ⟨v, now, standing⟩ := same
  simp only [Window.standing, Prod.mk.injEq] at standing
  obtain ⟨_, _, _, cls, closing⟩ := standing
  exact ⟨v, now, cls, closing⟩

theorem Redelivered.fits_iff {s t : State} (h : Redelivered s t) (e : Entry) (cls : DeliveryClass) : t.Fits e cls ↔ s.Fits e cls := by
  refine and_congr_right fun _ => ⟨fun ⟨v, now, opened, own⟩ => ?_, fun ⟨w, old, opened, own⟩ => ?_⟩
  · obtain ⟨w, old, _, _, _, cls, closing⟩ := h.before now
    exact ⟨w, old, closing.symm.trans opened, cls.symm.trans own⟩
  · obtain ⟨v, now, cls, closing⟩ := h.after old
    exact ⟨v, now, closing.trans opened, cls.trans own⟩

theorem Redelivered.openStrip {s t : State} (h : Redelivered s t) {strip : Option Nat} (opened : t.OpenStrip strip) : s.OpenStrip strip := by
  intro id own
  obtain ⟨v, now, now'⟩ := opened id own
  obtain ⟨w, old, _, _, _, _, closing⟩ := h.before now
  exact ⟨w, old, closing.symm.trans now'⟩

namespace Redelivered

variable {s t u : State}

theorem trans (h : Redelivered s t) (g : Redelivered t u) : Redelivered s u where
  sorted := g.sorted ∘ h.sorted
  standing := fun id => (g.standing id).trans (h.standing id)
  queued := fun p cls e mem => by
    rcases g.queued p cls e mem with fits | ⟨q, old⟩
    · exact .inl ((h.fits_iff e cls).mp fits)
    · exact h.queued q cls e old
  strip := fun p => by
    rcases h.strip p with same | ⟨before, middle⟩ <;> rcases g.strip p with same' | ⟨middle', after⟩
    · exact .inl (same'.trans same)
    · exact .inr ⟨same ▸ h.openStrip middle', h.openStrip after⟩
    · exact .inr ⟨before, same' ▸ middle⟩
    · exact .inr ⟨before, h.openStrip after⟩
  up := fun p => g.up p ∘ h.up p

/-- An event that leaves the windows as they are, and of the ports what the queues and strips depend on. -/
theorem of_ports (windows : t.windows = s.windows) (queue : ∀ p cls, (t.port p).queue cls = (s.port p).queue cls)
    (strip : ∀ p, (t.port p).stripWindow = (s.port p).stripWindow) (up : ∀ p, (s.port p).isUp = true → (t.port p).isUp = true) :
    Redelivered s t where
  sorted := by rw [windows]; exact id
  standing := fun id => by rw [State.window, windows]; rfl
  queued := fun p cls e mem => .inr ⟨p, by rw [← queue p cls]; exact mem⟩
  strip := fun p => .inl (strip p)
  up := up

theorem refl (s : State) : Redelivered s s := of_ports rfl (fun _ _ => rfl) (fun _ => rfl) fun _ => id

theorem of_raises (windows : t.windows = s.windows) (raises : OnlyRaises s t) : Redelivered s t := by
  have kept := fun p => raises.kept p
  refine of_ports windows (fun p cls => ?_) (fun p => ?_) fun p up => by rw [raises.isUp p]; exact up
  all_goals
    obtain ⟨_, _, e⟩ := kept p
    rw [e]
  · cases cls <;> rfl
  · rfl

theorem ite {c : Prop} [Decidable c] (h : Redelivered s t) (g : Redelivered s u) : Redelivered s (if c then t else u) :=
  iteInduction (motive := Redelivered s) (fun _ => h) fun _ => g

theorem foldl {α : Type} {f : State → α → State} (h : ∀ s x, Redelivered s (f s x)) (l : List α) :
    ∀ s, Redelivered s (l.foldl f s) := by
  induction l with
  | nil => exact refl
  | cons x l ih => exact fun s => (h s x).trans (ih _)

/-- A port replaced by one without strange entries, with the same strip or between strips of OPEN windows, and up if it was up. -/
theorem setPort (h : Redelivered s t) {p : Port} {c : ConsumerPort}
    (queued : ∀ cls, ∀ e ∈ c.queue cls, s.Fits e cls ∨ ∃ q, e ∈ (s.port q).queue cls)
    (strip : c.stripWindow = (t.port p).stripWindow ∨ s.OpenStrip (s.port p).stripWindow ∧ s.OpenStrip c.stripWindow)
    (up : (t.port p).isUp = true → c.isUp = true) : Redelivered s (t.setPort p c) where
  sorted := h.sorted
  standing := h.standing
  queued := fun q cls e mem => by
    rw [State.port_setPort] at mem
    split at mem
    · exact queued cls e mem
    · exact h.queued q cls e mem
  strip := fun q => by
    rw [State.port_setPort]
    split
    next own =>
      rw [own]
      rcases strip with same | opened
      · rw [same]; exact h.strip p
      · exact .inr opened
    · exact h.strip q
  up := fun q => by
    rw [State.port_setPort]
    split
    next own => rw [own]; exact up ∘ h.up p
    · exact h.up q

/-- A port replaced by one with the same queues. -/
theorem setPort_same (s : State) {p : Port} {c : ConsumerPort} (queue : ∀ cls, c.queue cls = (s.port p).queue cls)
    (strip : c.stripWindow = (s.port p).stripWindow) (up : (s.port p).isUp = true → c.isUp = true) : Redelivered s (s.setPort p c) :=
  (refl s).setPort (fun cls _ mem => .inr ⟨p, by rw [← queue cls]; exact mem⟩) (.inl strip) up

/-- A window's record rewritten with the same standing. -/
theorem putWindow (s : State) {id : Nat} {w v : Window} (old : s.window id = some w) (same : v.standing = w.standing) :
    Redelivered s (putWindow id v s) where
  sorted := tablePut_sorted s.windows id v
  standing := fun other => by
    show (tableGet (tablePut s.windows id v) other).map Window.standing = _
    rw [tableGet_put]
    split
    next own => rw [own, old, Option.map_some, Option.map_some, same]
    · rfl
  queued := fun p _ _ mem => .inr ⟨p, mem⟩
  strip := fun _ => .inl rfl
  up := fun _ up => up

end Redelivered

/-! ### The invariant -/

/-- The strips in flight of a window for which the same ports have one. -/
theorem stripsInFlight_congr {s t : State} {id : Nat}
    (same : ∀ p, (t.port p).stripWindow = some id ↔ (s.port p).stripWindow = some id) : stripsInFlight id t = stripsInFlight id s := by
  simp only [stripsInFlight, same]

/-- The table and the queues stay in agreement where no window is opened, closed or handed over. -/
theorem WindowsOk.redelivered {s t : State} (h : WindowsOk s) (r : Redelivered s t) : WindowsOk t where
  sorted := r.sorted h.sorted
  ids := fun id v now => by
    obtain ⟨w, old, _⟩ := r.before now
    exact h.ids id w old
  queued := fun p cls e mem => by
    refine (r.fits_iff e cls).mpr ?_
    rcases r.queued p cls e mem with fits | ⟨q, old⟩
    · exact fits
    · exact h.queued q cls e old
  inFlight := fun p id strip => by
    suffices old : (s.window id).isSome = true by
      obtain ⟨w, old⟩ := Option.isSome_iff_exists.mp old
      obtain ⟨v, now, _⟩ := r.after old
      rw [now]
      rfl
    rcases r.strip p with same | ⟨_, opened⟩
    · exact h.inFlight p id (same ▸ strip)
    · obtain ⟨w, old, _⟩ := opened id strip
      rw [old]
      rfl
  closing := fun id v n now closes => by
    obtain ⟨w, old, _, _, _, _, closing⟩ := r.before now
    have counted := h.closing id w n old (closing.symm.trans closes)
    rwa [stripsInFlight_congr (s := s) fun p => ?_]
    have other : ∀ {strip}, s.OpenStrip strip → strip ≠ some id := fun opened own => by
      obtain ⟨_, same, opened⟩ := opened id own
      cases old.symm.trans same
      cases opened.symm.trans (closing.symm.trans closes)
    rcases r.strip p with same | ⟨before, after⟩
    · rw [same]
    · exact iff_of_false (other after) (other before)
  owner := fun id v now opened => by
    obtain ⟨w, old, owner, _, _, _, closing⟩ := r.before now
    rw [owner]
    exact r.up _ (h.owner id w old (closing.symm.trans opened))
  adopted := fun id v now => by
    obtain ⟨w, old, owner, origin, adopted, _⟩ := r.before now
    rw [owner, origin, adopted]
    exact h.adopted id w old

/-- After a reset no window is left (R130). -/
theorem windowsOk_of_reset {s : State} (windows : s.windows = []) (ports : ∀ p, ∃ state up, s.port p = ConsumerPort.initial state up) :
    WindowsOk s := by
  have free : ∀ {id w}, s.window id ≠ some w := fun now => by rw [State.window, windows] at now; cases now
  constructor
  case sorted => rw [windows]; exact .nil
  case queued =>
    intro p cls e mem
    obtain ⟨_, _, port⟩ := ports p
    rw [port] at mem
    cases cls <;> cases mem
  case inFlight =>
    intro p id strip
    obtain ⟨_, _, port⟩ := ports p
    rw [port] at strip
    cases strip
  case ids => exact fun _ _ now => absurd now free
  case closing => exact fun _ _ _ now => absurd now free
  case owner => exact fun _ _ now => absurd now free
  case adopted => exact fun _ _ now => absurd now free

end Sys2Proof.Machine
end

section
/-!
SUPPORT. What a line, a trigger or an encoder count does to the store and to the delivery side: seals and placements, and nothing else.
-/

namespace Sys2Proof.Machine

/-! ### Chains of seals and placements -/

/-- Seals and placements, any number of them, and around them operations that leave the store, its bytes and the windows as they are and
at the ports raise notices alone. -/
inductive StoreWork : State → State → Prop where
  | quiet {s t : State} (bsc : t.bsc = s.bsc) (dram : t.dram = s.dram) (windows : t.windows = s.windows) (raises : OnlyRaises s t) :
      StoreWork s t
  | seals (k : Lane) (stop : Bool) (s : State) : StoreWork s (sealBand k stop s)
  | places (x : Placement) (s : State) : StoreWork s (place x s)
  | trans {s t u : State} (h : StoreWork s t) (g : StoreWork t u) : StoreWork s u

namespace StoreWork

variable {s t u : State}

theorem refl (s : State) : StoreWork s s := .quiet rfl rfl rfl (.refl s)

/-- An operation whose frame spares the store, its bytes and the windows, and that raises notices alone. -/
theorem of_agree {A : List Part} (agree : State.Agree A s t) (raises : OnlyRaises s t) (bsc : .bsc ∉ A := by decide)
    (dram : .dram ∉ A := by decide) (windows : .windows ∉ A := by decide) : StoreWork s t :=
  .quiet (agree.bsc bsc) (agree.dram dram) (agree.windows windows) raises

theorem ite {c : Prop} [Decidable c] (h : StoreWork s t) (g : StoreWork s u) : StoreWork s (if c then t else u) :=
  iteInduction (motive := StoreWork s) (fun _ => h) fun _ => g

theorem foldl {α : Type} {f : State → α → State} (h : ∀ s x, StoreWork s (f s x)) (l : List α) : ∀ s, StoreWork s (l.foldl f s) := by
  induction l with
  | nil => exact refl
  | cons x l ih => exact fun s => (h s x).trans (ih _)

theorem setLane (k : Lane) (l : LaneFrontEnd) (s : State) : StoreWork s (s.setLane k l) := .quiet rfl rfl rfl (.of_ports rfl)

theorem updateLane (k : Lane) (f : LaneFrontEnd → LaneFrontEnd) (s : State) : StoreWork s (updateLane k f s) := .setLane k _ s

theorem withMu (s : State) (x : MotionUnit) : StoreWork s (s.withMu x) := .quiet rfl rfl rfl (.of_ports rfl)

theorem raiseWhere (sel : Port → ConsumerPort → Bool) (k : NoticeKind) (s : State) : StoreWork s (raiseWhere sel k s) :=
  .quiet rfl rfl rfl (raiseWhere_raises sel k s)

end StoreWork

theorem stopSeal_work (s : State) : StoreWork s (stopSeal s) := .foldl (f := fun s k => sealBand k true s) (fun s k => .seals k true s) allLanes s

/-! ### Line events -/

theorem completeCommit_work (k : Lane) (s : State) : StoreWork s (completeCommit k s) :=
  .of_agree (A := [.cb, .ports]) (completeCommit_agree k s (by decide) (by decide)) (completeCommit_raises k s)

theorem runLine_work (k : Lane) (w : Line) (offset : Nat) (b : LineBody) (s : State) : StoreWork s (runLine k w offset b s) := by
  unfold runLine
  dsimp only
  refine .ite (.updateLane _ _ s) ?_
  split
  · exact .updateLane _ _ s
  · exact ((StoreWork.updateLane k _ s).trans (.places _ _)).trans (.of_agree (levelLine_agree _ _ _ _ _) (levelLine_raises _ _ _ _ _))

theorem lineEvent_work (k : Lane) (w : Line) (offset : Nat) (mode : ActiveMode) (b : LineBody) (s : State) :
    StoreWork s (lineEvent k w offset mode b s) := by
  have begun : StoreWork s (lineBegun k s) := (completeCommit_work k s).trans (.updateLane _ _ _)
  cases mode with
  | run => rw [lineEvent_run]; exact begun.trans (runLine_work _ _ _ _ _)
  | check => rw [lineEvent_check]; exact begun.trans (.updateLane _ _ _)

theorem removeOldest_work (k : Lane) (b : LineBody) (s : State) : StoreWork s (removeOldest k b s) := by
  cases fifo : (s.lane k).fifo with
  | nil => rw [removeOldest_empty fifo]; exact .refl s
  | cons e rest =>
    rw [removeOldest_cons fifo]
    have event := (StoreWork.setLane k { s.lane k with fifo := rest, drain := (s.lane k).drain - 1 } s).trans
      (lineEvent_work k e.wln e.offset e.mode b _)
    exact .ite (event.trans (.seals k false _)) event

theorem loseOldest_work (k : Lane) (s : State) : StoreWork s (loseOldest k s) := (removeOldest_work k .missing s).trans (.setLane k _ _)

theorem flushCounted_work (k : Lane) (n : Nat) : ∀ s, StoreWork s (flushCounted k n s) := by
  induction n with
  | zero => exact .refl
  | succ n ih => exact fun s => (loseOldest_work k s).trans (ih _)

theorem flushMissing_work (k : Lane) (n : Nat) : ∀ s, StoreWork s (flushMissing k n s) := by
  induction n with
  | zero => exact .refl
  | succ n ih => exact fun s => (removeOldest_work k _ s).trans (ih _)

/-! ### Triggers and lane links -/

theorem changeState_work (k : Lane) (new : LaneState) (s : State) : StoreWork s (changeState k new s) :=
  .of_agree (changeState_agree k new s) (changeState_raises k new s)

theorem modeActions_work (k : Lane) (old new : Option ActiveMode) (s : State) : StoreWork s (modeActions k old new s) := by
  have changed : StoreWork s (updateLane k (modeChanged old new) s) := .updateLane _ _ s
  rw [modeActions_eq]
  exact .ite (changed.trans (.seals k false _)) changed

theorem sourceActions_work (k : Lane) (new : Source) (s : State) : StoreWork s (sourceActions k new s) :=
  .ite (.refl s) (((flushCounted_work k _ s).trans (.updateLane _ _ _)).trans (.seals k false _))

theorem applyRepeatStart_work (k : Lane) (s : State) : StoreWork s (applyRepeatStart k s) := by
  have offset : StoreWork s (updateLane k applyOffset s) := .updateLane _ _ s
  unfold applyRepeatStart
  dsimp only
  split
  · exact offset
  · exact ((((offset.trans (.updateLane k _ _)).trans (changeState_work k _ _)).trans (modeActions_work _ _ _ _)).trans
      (sourceActions_work _ _ _))

theorem handleTrigger_work (k : Lane) (w : Line) (s : State) : StoreWork s (handleTrigger k w s) := by
  unfold handleTrigger
  dsimp only
  split
  · exact .refl s
  · exact lineEvent_work _ _ _ _ _ s
  · split
    · exact lineEvent_work _ _ _ _ _ s
    · exact lineEvent_work _ _ _ _ _ s
    · exact .trans (.ite (loseOldest_work k s) (.refl s)) (.updateLane _ _ _)

theorem triggerLanes_work (w : Line) (mark : Bool) (s : State) : StoreWork s (triggerLanes w mark s) :=
  .foldl (f := takeTrigger w mark) (fun s k => .trans (.ite (applyRepeatStart_work k s) (.refl s)) (handleTrigger_work k w _)) allLanes s

theorem arriveLine_work (k : Lane) (frame : LineFrame) (s : State) : StoreWork s (arriveLine k frame s) := by
  unfold arriveLine
  refine .ite ?_ (.refl s)
  split
  · exact .refl s
  · exact .ite (.updateLane _ _ s) (removeOldest_work k _ s)
  · exact .trans (.updateLane _ _ s) (removeOldest_work k _ _)

theorem loseLaneLink_work (k : Lane) (s : State) : StoreWork s (loseLaneLink k s) := by
  have faulted : ∀ s, StoreWork s (faultLane k s) := fun s => by
    unfold faultLane
    split
    · exact changeState_work _ _ s
    · exact .refl s
    · exact .refl s
  exact .ite (((StoreWork.updateLane k _ s).trans (faulted _)).trans (flushMissing_work k _ _)) (.refl s)

theorem returnLaneLink_work (k : Lane) (s : State) : StoreWork s (returnLaneLink k s) := by
  have linked : StoreWork s (updateLane k (fun l => { l with linkUp := true }) s) := .updateLane _ _ s
  unfold returnLaneLink
  dsimp only
  split
  · exact linked.trans (changeState_work _ _ _)
  · exact linked
  · exact linked

/-! ### Encoder counts -/

theorem afterReceivers_work (s : State) : StoreWork s (afterReceivers s) := by
  have counted : StoreWork s (countDueLine s) := .of_agree (countDueLine_agree s) (countDueLine_raises s)
  have numbered := counted.trans (.of_agree (A := [.ru, .ports]) (repeatDueLine_agree (s.mu.wln + 1) _ (by decide) (by decide))
    (repeatDueLine_raises _ _))
  have started := numbered.trans (.of_agree (markRepeatStart_agree (s.mu.wln + 1) _) (.of_ports ((markRepeatStart_agree _ _).ports (by decide))))
  have fired := started.trans (.of_agree (A := [.mku, .ports]) (markerDueLine_agree (s.mu.wln + 1) _ (by decide) (by decide))
    (markerDueLine_raises _ _))
  exact fired.trans (.of_agree (levelSpan_agree (s.mu.wln + 1) _) (levelSpan_raises _ _))

theorem dueLine_work (s : State) : StoreWork s (dueLine s) := by
  rw [dueLine_eq]
  refine (afterReceivers_work s).trans ?_
  unfold gateDueLine
  split
  · exact (StoreWork.withMu _ _).trans (triggerLanes_work _ _ _)
  · exact (StoreWork.withMu _ _).trans (.raiseWhere _ _ _)

theorem encoderChange_work (inputs : EncInputs) (s : State) : StoreWork s (encoderChange inputs s) := by
  have stepped : ∀ s, StoreWork s (lineStep s) := fun s => .ite (.withMu s _) (dueLine_work s)
  have forward : ∀ s, StoreWork s (forwardCount s) := fun s => .ite ((StoreWork.withMu s _).trans (stepped _)) (.withMu s _)
  have overrun : ∀ s, StoreWork s (overrunIndication s) := fun s =>
    .of_agree (A := [.ru, .ports]) (overrunIndication_agree s (by decide) (by decide)) (overrunIndication_raises s)
  have back : ∀ s, StoreWork s (reverseStep s) := fun s =>
    .ite (.withMu s _) (((StoreWork.withMu s _).trans (.raiseWhere _ _ _)).trans (overrun _))
  have reverse : ∀ s, StoreWork s (reverseCount s) := fun s => .ite (.withMu s _) ((StoreWork.withMu s _).trans (back _))
  have moved : StoreWork s (s.withMu { s.mu with reference := inputs }) := .withMu s _
  unfold encoderChange
  dsimp only
  refine .ite moved (.ite ?_ (.ite (moved.trans (forward _)) (moved.trans (reverse _))))
  exact (moved.trans (.withMu _ _)).trans (.raiseWhere _ _ _)

end Sys2Proof.Machine
end

section
/-!
SUPPORT. The window table with the delivery queues under releases, matching, seals, placements, and the loss of entries.
-/

namespace Sys2Proof.Machine

/-! ### Releases (R107) -/

theorem releaseSlot_raises (slot : Nat) (s : State) : OnlyRaises s (releaseSlot slot s) := by
  unfold releaseSlot
  split
  · exact .refl s
  · split
    · exact .refl s
    · exact onlyRaises_ite (freeSlot_raises slot s) (.of_ports rfl)

theorem releaseEntries_raises (es : List Entry) (s : State) : OnlyRaises s (releaseEntries es s) :=
  onlyRaises_foldl (f := fun s (e : Entry) => releaseSlot e.slot s) (fun s e => releaseSlot_raises e.slot s) es s

@[simp] theorem releaseSlot_windows (slot : Nat) (s : State) : (releaseSlot slot s).windows = s.windows :=
  (releaseSlot_agree (A := [.bsc, .ports]) slot s (by decide) (by decide)).windows (by decide)

@[simp] theorem releaseEntries_windows (es : List Entry) (s : State) : (releaseEntries es s).windows = s.windows :=
  (releaseEntries_agree (A := [.bsc, .ports]) es s (by decide) (by decide)).windows (by decide)

theorem releaseSlot_redelivered (slot : Nat) (s : State) : Redelivered s (releaseSlot slot s) :=
  .of_raises (releaseSlot_windows slot s) (releaseSlot_raises slot s)

/-! ### Matching and seals (R123 to R127, R105) -/

theorem setQueue_queue (c : ConsumerPort) (cls other : DeliveryClass) (q : List Entry) :
    (c.setQueue cls q).queue other = if other = cls then q else c.queue other := by
  cases cls <;> cases other <;> rfl

theorem setQueue_stripWindow (c : ConsumerPort) (cls : DeliveryClass) (q : List Entry) : (c.setQueue cls q).stripWindow = c.stripWindow := by
  cases cls <;> rfl

theorem setQueue_isUp (c : ConsumerPort) (cls : DeliveryClass) (q : List Entry) : (c.setQueue cls q).isUp = c.isUp := by
  cases cls <;> rfl

/-- A queue replaced by one without strange entries. -/
theorem Redelivered.setQueue {s t : State} (h : Redelivered s t) {p : Port} {cls : DeliveryClass} {q : List Entry}
    (queued : ∀ e ∈ q, s.Fits e cls ∨ ∃ p, e ∈ (s.port p).queue cls) : Redelivered s (t.setPort p ((t.port p).setQueue cls q)) := by
  refine h.setPort (fun other e mem => ?_) (.inl (setQueue_stripWindow _ _ _)) fun up => by rw [setQueue_isUp]; exact up
  rw [setQueue_queue] at mem
  split at mem
  next own => rw [own]; exact queued e mem
  · exact h.queued p other e mem

theorem countDropped_redelivered (p : Port) (s : State) : Redelivered s (countDropped p s) :=
  .setPort_same s (fun cls => by cases cls <;> rfl) rfl id

/-- A candidate is OPEN (R124). -/
theorem Window.candidate_open {w : Window} {b : Band} (h : w.candidate b = true) : w.closing = none := by
  simp only [Window.candidate, Bool.and_eq_true, Option.isNone_iff_eq_none] at h
  obtain ⟨⟨⟨⟨⟨⟨opened, _⟩, _⟩, _⟩, _⟩, _⟩, _⟩ := h
  exact opened

theorem matchWindow_redelivered (slot : Nat) (b : Band) (acc : State × Nat) (id : Nat) :
    Redelivered acc.1 (matchWindow slot b acc id).1 := by
  unfold matchWindow
  split
  · exact .refl _
  next w now =>
    split
    next candidate =>
      split
      · refine (Redelivered.refl _).setQueue fun e mem => ?_
        rcases List.mem_append.mp mem with old | new
        · exact .inr ⟨_, old⟩
        · rw [List.mem_singleton.mp new]
          exact .inl ⟨rfl, w, now, Window.candidate_open candidate, rfl⟩
      · exact (Redelivered.putWindow acc.1 (v := { w with gap := true, dropped := w.dropped + 1 }) now rfl).trans
          (countDropped_redelivered w.owner _)
    · exact .refl _

theorem matchBand_redelivered (slot : Nat) (b : Band) (s : State) : Redelivered s (matchBand slot b s).1 := by
  have fold : ∀ (ids : List Nat) (acc : State × Nat), Redelivered acc.1 (ids.foldl (matchWindow slot b) acc).1 := by
    intro ids
    induction ids with
    | nil => exact fun acc => .refl _
    | cons id ids ih => exact fun acc => (matchWindow_redelivered slot b acc id).trans (ih _)
  exact fold _ (s, 0)

theorem withBsc_redelivered (s : State) (x : BandStore) : Redelivered s (s.withBsc x) := .of_raises rfl (.of_ports rfl)

theorem judgePressure_redelivered (s : State) : Redelivered s (judgePressure s) :=
  .of_raises ((judgePressure_agree (A := [.bsc, .ports]) s (by decide) (by decide)).windows (by decide)) (judgePressure_raises s)

theorem sealBand_redelivered (k : Lane) (stop : Bool) (s : State) : Redelivered s (sealBand k stop s) := by
  unfold sealBand
  split
  · exact .refl s
  · split
    · exact withBsc_redelivered s _
    next slot _ _ _ _ =>
      have matched : ∀ b, Redelivered s (matchBand slot b
          (clearFilling k (s.withBsc { s.bsc with sealSequence := s.bsc.sealSequence + 1 }))).1 := fun b =>
        ((withBsc_redelivered s _).trans (withBsc_redelivered _ _)).trans (matchBand_redelivered _ _ _)
      dsimp only
      exact .ite ((matched _).trans ((withBsc_redelivered _ _).trans (judgePressure_redelivered _)))
        ((matched _).trans (withBsc_redelivered _ _))

theorem extendBand_redelivered (slot : Nat) (b : Band) (x : Placement) (s : State) : Redelivered s (extendBand slot b x s) := by
  unfold extendBand
  extract_lets t
  have written : Redelivered s t := by
    unfold t
    split <;> exact .of_raises rfl (.of_ports rfl)
  exact .ite (written.trans (sealBand_redelivered _ _ _)) written

theorem openBand_redelivered (x : Placement) (s : State) : Redelivered s (openBand x s) := by
  unfold openBand
  split
  · exact withBsc_redelivered s _
  · exact ((withBsc_redelivered s _).trans (judgePressure_redelivered _)).trans (extendBand_redelivered _ _ _ _)

theorem place_redelivered (x : Placement) (s : State) : Redelivered s (place x s) := by
  have next := (sealBand_redelivered x.lane false s).trans (openBand_redelivered x _)
  unfold place
  split
  · exact openBand_redelivered x s
  · split
    · exact next
    · exact .ite (extendBand_redelivered _ _ x s) next

/-- No line, trigger or encoder count opens, closes or hands over a window. -/
theorem StoreWork.redelivered {s t : State} (h : StoreWork s t) : Redelivered s t := by
  induction h with
  | quiet _ _ windows raises => exact .of_raises windows raises
  | seals k stop s => exact sealBand_redelivered k stop s
  | places x s => exact place_redelivered x s
  | trans _ _ first second => exact first.trans second

/-! ### Entries lost and moved (R140, R146, R147) -/

theorem markLost_redelivered (id : Nat) (s : State) : Redelivered s (markLost id s) := by
  unfold markLost
  split
  · exact .refl s
  next w now => exact .ite (.putWindow s now rfl) (.refl s)

theorem loseEntry_redelivered (p : Port) (s : State) (e : Entry) : Redelivered s (loseEntry p s e) :=
  ((releaseSlot_redelivered _ s).trans (markLost_redelivered _ _)).trans (countDropped_redelivered p _)

theorem moveQueue_redelivered (p st : Port) (cls : DeliveryClass) (s : State) : Redelivered s (moveQueue p st cls s) := by
  unfold moveQueue
  extract_lets q room emptied moved
  have leaves : Redelivered s emptied := (Redelivered.refl s).setQueue nofun
  have joins : Redelivered s moved := leaves.setQueue fun e mem => by
    rcases List.mem_append.mp mem with old | taken
    · exact leaves.queued st cls e old
    · exact .inr ⟨p, List.mem_of_mem_take taken⟩
  exact joins.trans (.foldl (loseEntry_redelivered p) _ moved)

end Sys2Proof.Machine
end

section
/-!
SUPPORT. Windows opened, closed and handed over, and strips begun and ended, with the table and the queues in agreement (R116, R118 to
R121, R137, R145).
-/

namespace Sys2Proof.Machine

/-! ### Sparse tables -/

theorem mem_of_tableGet {α : Type} {t : List (Nat × α)} {k : Nat} {x : α} (h : tableGet t k = some x) : (k, x) ∈ t := by
  induction t with
  | nil => cases h
  | cons e t ih =>
    rw [tableGet] at h
    split at h
    next own => cases h; subst own; exact List.mem_cons_self
    · exact List.mem_cons_of_mem e (ih h)

/-- A table whose values are changed one by one. -/
theorem tableGet_map {α β : Type} (f : Nat → α → β) (t : List (Nat × α)) (k : Nat) :
    tableGet (t.map fun x => (x.1, f x.1 x.2)) k = (tableGet t k).map (f k) := by
  induction t with
  | nil => rfl
  | cons e t ih =>
    rw [List.map_cons, tableGet, tableGet]
    split
    next own => rw [Option.map_some, own]
    · exact ih

/-! ### The window table -/

theorem window_putWindow (id other : Nat) (w : Window) (s : State) :
    (putWindow id w s).window other = if other = id then some w else s.window other := tableGet_put s.windows id other w

theorem window_eraseWindow (id other : Nat) (s : State) : (eraseWindow id s).window other = if other = id then none else s.window other :=
  tableGet_erase s.windows id other

/-! ### A window that is closing or freed (R118, R119) -/

/-- One window changed to CLOSING with its strips in flight, or FREE without any: the table and the queues agree where no queued entry
names it. -/
theorem WindowsOk.closed {s t : State} (h : WindowsOk s) {id : Nat} (sorted : tableSorted t.windows)
    (others : ∀ j, j ≠ id → t.window j = s.window j) (queue : ∀ p cls, (t.port p).queue cls = (s.port p).queue cls)
    (gone : ∀ p cls, ∀ e ∈ (s.port p).queue cls, e.window ≠ id)
    (strip : ∀ p j, j ≠ id → ((t.port p).stripWindow = some j ↔ (s.port p).stripWindow = some j))
    (up : ∀ p, (s.port p).isUp = true → (t.port p).isUp = true) (free : t.window id = none → ∀ p, (t.port p).stripWindow ≠ some id)
    (closing : ∀ v, t.window id = some v → id < Config.windowCount ∧ v.closing = some (stripsInFlight id t) ∧ 1 ≤ stripsInFlight id t
      ∧ (v.adopted = true ↔ v.owner ≠ v.origin)) : WindowsOk t where
  sorted := sorted
  ids := fun j v now => by
    by_cases own : j = id
    · subst own
      exact (closing v now).1
    · exact h.ids j v (others j own ▸ now)
  queued := fun p cls e mem => by
    rw [queue] at mem
    rw [others _ (gone p cls e mem)]
    exact h.queued p cls e mem
  inFlight := fun p j own => by
    by_cases same : j = id
    · subst same
      exact Option.isSome_iff_ne_none.mpr fun none => free none p own
    · rw [others j same]
      exact h.inFlight p j ((strip p j same).mp own)
  closing := fun j v n now closes => by
    by_cases own : j = id
    · subst own
      obtain ⟨_, counted, least, _⟩ := closing v now
      cases counted.symm.trans closes
      exact ⟨rfl, least⟩
    · rw [stripsInFlight_congr fun p => strip p j own]
      exact h.closing j v n (others j own ▸ now) closes
  owner := fun j v now opened => by
    by_cases own : j = id
    · subst own
      cases (closing v now).2.1.symm.trans opened
    · exact up _ (h.owner j v (others j own ▸ now) opened)
  adopted := fun j v now => by
    by_cases own : j = id
    · subst own
      exact (closing v now).2.2.2
    · exact h.adopted j v (others j own ▸ now)

theorem mem_allPorts (p : Port) : p ∈ allPorts := by cases p <;> decide

/-- Without strips in flight of a window, no port sends one. -/
theorem stripsInFlight_zero {s : State} {id : Nat} (none : stripsInFlight id s = 0) (p : Port) : (s.port p).stripWindow ≠ some id := by
  intro own
  have empty := List.eq_nil_of_length_eq_zero none
  have mem : p ∈ allPorts.filter fun p => decide ((s.port p).stripWindow = some id) :=
    List.mem_filter.mpr ⟨mem_allPorts p, decide_eq_true own⟩
  rw [empty] at mem
  cases mem

/-- The strips in flight once one of them has ended. -/
theorem stripsInFlight_ended {s t : State} {p : Port} {id : Nat} (own : (s.port p).stripWindow = some id)
    (idle : (t.port p).stripWindow = none) (others : ∀ q, q ≠ p → (t.port q).stripWindow = (s.port q).stripWindow) :
    stripsInFlight id s = stripsInFlight id t + 1 := by
  obtain ⟨before, after, split, notBefore, notAfter⟩ := allPorts_split p
  have same : ∀ ps : List Port, p ∉ ps →
      (ps.filter fun q => decide ((t.port q).stripWindow = some id)) = ps.filter fun q => decide ((s.port q).stripWindow = some id) :=
    fun ps out => List.filter_congr fun q mem => by rw [others q fun e => out (e ▸ mem)]
  rw [stripsInFlight, stripsInFlight, split, List.filter_append, List.filter_append, List.filter_cons, List.filter_cons, same _ notBefore,
    same _ notAfter, if_pos (decide_eq_true own), if_neg (by simp [idle]), List.length_append, List.length_append, List.length_cons]
  omega

/-- The window of a strip after the end of the strip (R119). -/
theorem closingStripEnd_window {s : State} {id : Nat} {w : Window} {n : Nat} (now : s.window id = some w) (closes : w.closing = some n)
    (other : Nat) : (closingStripEnd id s).window other =
      if other = id then if n ≤ 1 then none else some { w with closing := some (n - 1) } else s.window other := by
  unfold closingStripEnd
  rw [now]
  dsimp only
  rw [closes]
  dsimp only
  split
  · exact window_eraseWindow id other s
  · exact window_putWindow id other _ s

theorem closingStripEnd_sorted {s : State} (sorted : tableSorted s.windows) (id : Nat) : tableSorted (closingStripEnd id s).windows := by
  unfold closingStripEnd
  split
  · exact sorted
  · split
    · exact sorted
    · split
      · exact tableErase_sorted _ _ sorted
      · exact tablePut_sorted _ _ _ sorted

theorem closingStripEnd_congr (id : Nat) {s t : State} (same : s.windows = t.windows) :
    (closingStripEnd id s).windows = (closingStripEnd id t).windows := by
  unfold closingStripEnd State.window
  rw [same]
  split
  · exact same
  · split
    · exact same
    · split
      · exact congrArg (tableErase · id) same
      · exact congrArg (tablePut · id _) same

@[simp] theorem closingStripEnd_port (id : Nat) (s : State) (p : Port) : (closingStripEnd id s).port p = s.port p :=
  congrArg (PerPort.get · p) ((closingStripEnd_agree (A := [.windows]) id s (by decide)).ports (by decide))

/-- A strip of a CLOSING window ended: one in flight less, and the window FREE after the last (R119). -/
theorem WindowsOk.stripEnded {s t : State} (h : WindowsOk s) {p : Port} {id : Nat} {w : Window} {n : Nat}
    (own : (s.port p).stripWindow = some id) (now : s.window id = some w) (closes : w.closing = some n)
    (windows : t.windows = (closingStripEnd id s).windows) (queue : ∀ q cls, (t.port q).queue cls = (s.port q).queue cls)
    (idle : (t.port p).stripWindow = none) (others : ∀ q, q ≠ p → (t.port q).stripWindow = (s.port q).stripWindow)
    (up : ∀ q, (s.port q).isUp = true → (t.port q).isUp = true) : WindowsOk t := by
  have record : ∀ j, t.window j = if j = id then if n ≤ 1 then none else some { w with closing := some (n - 1) } else s.window j :=
    fun j => by
      rw [State.window, windows]
      exact closingStripEnd_window now closes j
  have counted := (h.closing id w n now closes).1
  have fewer := stripsInFlight_ended own idle others
  refine h.closed (id := id) (by rw [windows]; exact closingStripEnd_sorted h.sorted id) (fun j ne => by rw [record, if_neg ne]) queue
    (fun q cls e mem same => ?_) (fun q j ne => ?_) up (fun none => ?_) fun v some => ?_
  · obtain ⟨_, x, now', opened, _⟩ := h.queued q cls e mem
    rw [same] at now'
    cases now.symm.trans now'
    cases closes.symm.trans opened
  · by_cases same : q = p
    · subst same
      rw [idle, own]
      exact iff_of_false nofun fun e => ne (Option.some.inj e).symm
    · rw [others q same]
  · rw [record, if_pos rfl, ite_eq_left_iff] at none
    have last : n ≤ 1 := by
      by_contra more
      cases none more
    exact stripsInFlight_zero (by omega)
  · rw [record, if_pos rfl] at some
    split at some
    · cases some
    · cases some
      exact ⟨h.ids id w now, congrArg Option.some (by omega), by omega, h.adopted id w now⟩

/-- A window without queued entries becomes FREE, or CLOSING with its strips in flight (R118 step 2). -/
def retireWindow (id : Nat) (w : Window) (s : State) : State :=
  if stripsInFlight id s = 0 then eraseWindow id s else putWindow id { w with closing := some (stripsInFlight id s) } s

theorem WindowsOk.retireWindow {s : State} (h : WindowsOk s) {id : Nat} {w : Window} (now : s.window id = some w)
    (gone : ∀ p cls, ∀ e ∈ (s.port p).queue cls, e.window ≠ id) : WindowsOk (retireWindow id w s) := by
  unfold Machine.retireWindow
  split
  next none =>
    refine h.closed (id := id) (tableErase_sorted _ _ h.sorted) (fun j ne => by rw [window_eraseWindow, if_neg ne]) (fun _ _ => rfl) gone
      (fun _ _ _ => Iff.rfl) (fun _ up => up) (fun _ => stripsInFlight_zero none) fun v some => ?_
    rw [window_eraseWindow, if_pos rfl] at some
    cases some
  next flies =>
    refine h.closed (id := id) (tablePut_sorted _ _ _ h.sorted) (fun j ne => by rw [window_putWindow, if_neg ne]) (fun _ _ => rfl) gone
      (fun _ _ _ => Iff.rfl) (fun _ up => up) (fun none => ?_) fun v some => ?_
    · rw [window_putWindow, if_pos rfl] at none
      cases none
    · rw [window_putWindow, if_pos rfl] at some
      cases some
      exact ⟨h.ids id w now, rfl, Nat.one_le_iff_ne_zero.mpr flies, h.adopted id w now⟩

/-! ### The withdrawal of a window's entries (R118 step 1) -/

/-- A port whose queue of a class holds no entry of a window any more. -/
def ConsumerPort.without (c : ConsumerPort) (id : Nat) (cls : DeliveryClass) : ConsumerPort :=
  c.setQueue cls ((c.queue cls).filter fun e => decide (e.window ≠ id))

/-- The withdrawal of a window's entries at every port, C0 to C3. -/
def withdrawAll (id : Nat) (cls : DeliveryClass) (s : State) : State := allPorts.foldl (withdraw id cls) s

@[simp] theorem withdraw_windows (id : Nat) (cls : DeliveryClass) (s : State) (p : Port) : (withdraw id cls s p).windows = s.windows :=
  releaseEntries_windows _ _

@[simp] theorem withdrawAll_windows (id : Nat) (cls : DeliveryClass) (s : State) : (withdrawAll id cls s).windows = s.windows := by
  simp [withdrawAll, allPorts]

/-- A withdrawal takes the entries out of the port's queue, raises notices at any port, and changes nothing else of the ports. -/
theorem withdraw_port (id : Nat) (cls : DeliveryClass) (s : State) (p q : Port) : ∃ pending notice, (withdraw id cls s p).port q
    = { (if q = p then (s.port q).without id cls else s.port q) with pendingSet := pending, notice := notice } := by
  obtain ⟨pending, notice, port⟩ := (releaseEntries_raises (((s.port p).queue cls).filter fun e => decide (e.window = id))
    (s.setPort p ((s.port p).without id cls))).kept q
  refine ⟨pending, notice, port.trans ?_⟩
  rw [State.port_setPort]
  split
  next own => rw [own]
  · rfl

theorem without_without (c : ConsumerPort) (id : Nat) (cls : DeliveryClass) : (c.without id cls).without id cls = c.without id cls := by
  cases cls <;> simp [ConsumerPort.without, ConsumerPort.setQueue, ConsumerPort.queue]

theorem without_noticed (c : ConsumerPort) (id : Nat) (cls : DeliveryClass) (pending : NoticeSet) (notice : Option NoticeSet) :
    ({ c with pendingSet := pending, notice := notice } : ConsumerPort).without id cls
      = { c.without id cls with pendingSet := pending, notice := notice } := by
  cases cls <;> rfl

theorem foldl_withdraw_port (id : Nat) (cls : DeliveryClass) (q : Port) (ps : List Port) : ∀ s : State, ∃ pending notice,
    (ps.foldl (withdraw id cls) s).port q
      = { (if q ∈ ps then (s.port q).without id cls else s.port q) with pendingSet := pending, notice := notice } := by
  induction ps with
  | nil => exact fun s => ⟨(s.port q).pendingSet, (s.port q).notice, rfl⟩
  | cons p ps ih =>
    intro s
    obtain ⟨_, _, first⟩ := withdraw_port id cls s p q
    obtain ⟨pending, notice, later⟩ := ih (withdraw id cls s p)
    refine ⟨pending, notice, ?_⟩
    rw [List.foldl_cons, later, first, without_noticed]
    by_cases own : q = p
    · rw [if_pos own, if_pos (List.mem_cons.mpr (.inl own)), without_without, ite_self]
    · rw [if_neg own]
      simp only [List.mem_cons, own, false_or]
      split <;> rfl

theorem withdrawAll_port (id : Nat) (cls : DeliveryClass) (s : State) (q : Port) : ∃ pending notice,
    (withdrawAll id cls s).port q = { (s.port q).without id cls with pendingSet := pending, notice := notice } := by
  obtain ⟨pending, notice, port⟩ := foldl_withdraw_port id cls q allPorts s
  exact ⟨pending, notice, by rw [withdrawAll, port, if_pos (mem_allPorts q)]⟩

end Sys2Proof.Machine
end

section
/-!
SUPPORT. The window table with the delivery queues under the closure of a window, a change of owner, the end of an event and the failure
of a port.
-/

namespace Sys2Proof.Machine

/-! ### The closure of a window (R118) -/

/-- The closure of a window that is not FREE: its entries withdrawn, then the window retired (R118). -/
theorem closeWindow_eq {id : Nat} {w : Window} {s : State} (now : s.window id = some w) :
    closeWindow id s = retireWindow id w (withdrawAll id w.cls s) := by
  unfold closeWindow
  rw [now]
  show (match stripsInFlight id (withdrawAll id w.cls s) with | 0 => _ | n + 1 => _) = retireWindow id w (withdrawAll id w.cls s)
  unfold retireWindow
  cases stripsInFlight id (withdrawAll id w.cls s) <;> rfl

theorem closeWindow_free {id : Nat} {s : State} (now : s.window id = none) : closeWindow id s = s := by
  unfold closeWindow
  rw [now]

theorem without_queue (c : ConsumerPort) (id : Nat) (cls other : DeliveryClass) :
    (c.without id cls).queue other = if other = cls then (c.queue cls).filter fun e => decide (e.window ≠ id) else c.queue other :=
  setQueue_queue _ _ _ _

theorem withdrawAll_queue (id : Nat) (cls : DeliveryClass) (s : State) (p : Port) (other : DeliveryClass) :
    ((withdrawAll id cls s).port p).queue other
      = if other = cls then ((s.port p).queue cls).filter fun e => decide (e.window ≠ id) else (s.port p).queue other := by
  obtain ⟨_, _, port⟩ := withdrawAll_port id cls s p
  rw [port, ← without_queue]
  cases other <;> rfl

theorem withdrawAll_redelivered (id : Nat) (cls : DeliveryClass) (s : State) : Redelivered s (withdrawAll id cls s) :=
  .foldl (f := withdraw id cls) (fun s p =>
    ((Redelivered.refl s).setQueue fun _ mem => .inr ⟨p, (List.mem_filter.mp mem).1⟩).trans
      (.of_raises (releaseEntries_windows _ _) (releaseEntries_raises _ _))) allPorts s

/-- Every entry of a window stands in the queues of the window's class (R134), so the withdrawal leaves none. -/
theorem WindowsOk.withdrawn {s : State} (h : WindowsOk s) {id : Nat} {w : Window} (now : s.window id = some w) (p : Port)
    (cls : DeliveryClass) : ((withdrawAll id w.cls s).port p).queue cls = ((s.port p).queue cls).filter fun e => decide (e.window ≠ id) := by
  rw [withdrawAll_queue]
  split
  next own => rw [own]
  next other =>
    refine (List.filter_eq_self.mpr fun e mem => decide_eq_true (p := e.window ≠ id) fun same => other ?_).symm
    obtain ⟨_, x, now', _, own⟩ := h.queued p cls e mem
    rw [same] at now'
    cases now.symm.trans now'
    exact own.symm

/-- A closure keeps the table and the queues in agreement. -/
theorem WindowsOk.closeWindow {s : State} (h : WindowsOk s) (id : Nat) : WindowsOk (closeWindow id s) := by
  cases now : s.window id with
  | none => rw [closeWindow_free now]; exact h
  | some w =>
    rw [closeWindow_eq now]
    have kept : (withdrawAll id w.cls s).window id = some w := by rw [State.window, withdrawAll_windows]; exact now
    refine (h.redelivered (withdrawAll_redelivered id w.cls s)).retireWindow kept fun p cls e mem => ?_
    rw [h.withdrawn now] at mem
    exact of_decide_eq_true (List.mem_filter.mp mem).2

/-- The window table after a closure: the other windows are as they were, and the window is not OPEN. -/
theorem closeWindow_open {s : State} {id other : Nat} {v : Window} (now : (closeWindow id s).window other = some v)
    (opened : v.closing = none) : other ≠ id ∧ s.window other = some v := by
  cases old : s.window id with
  | none =>
    rw [closeWindow_free old] at now
    refine ⟨fun own => ?_, now⟩
    rw [own, old] at now
    cases now
  | some w =>
    rw [closeWindow_eq old] at now
    have kept : (withdrawAll id w.cls s).window other = s.window other := by rw [State.window, withdrawAll_windows]; rfl
    unfold retireWindow at now
    split at now
    · rw [window_eraseWindow, kept] at now
      split at now
      · cases now
      next ne => exact ⟨ne, now⟩
    · rw [window_putWindow, kept] at now
      split at now
      · cases now
        cases opened
      next ne => exact ⟨ne, now⟩

/-! ### A window handed over or opened (R116, R121, R145) -/

/-- Windows given other owners: the class and the state of each stay, and an OPEN one has an owner that is up. -/
theorem WindowsOk.handedOver {s : State} (h : WindowsOk s) {windows : List (Nat × Window)} (f : Nat → Window → Window)
    (sorted : tableSorted windows) (record : ∀ id, tableGet windows id = (s.window id).map (f id))
    (kept : ∀ id w, (f id w).cls = w.cls ∧ (f id w).closing = w.closing)
    (owner : ∀ id w, s.window id = some w → w.closing = none → (s.port (f id w).owner).isUp = true)
    (adopted : ∀ id w, s.window id = some w → ((f id w).adopted = true ↔ (f id w).owner ≠ (f id w).origin)) :
    WindowsOk (s.withWindows windows) := by
  have before : ∀ {id v}, (s.withWindows windows).window id = some v → ∃ w, s.window id = some w ∧ v = f id w := fun {id v} now => by
    obtain ⟨w, old, same⟩ := Option.map_eq_some_iff.mp ((record id).symm.trans now)
    exact ⟨w, old, same.symm⟩
  have after : ∀ {id w}, s.window id = some w → (s.withWindows windows).window id = some (f id w) := fun {id w} old => by
    show tableGet windows id = _
    rw [record, old]
    rfl
  constructor
  case sorted => exact sorted
  case ids =>
    intro id v now
    obtain ⟨w, old, _⟩ := before now
    exact h.ids id w old
  case queued =>
    intro p cls e mem
    obtain ⟨own, w, old, opened, same⟩ := h.queued p cls e mem
    exact ⟨own, _, after old, (kept _ w).2.trans opened, (kept _ w).1.trans same⟩
  case inFlight =>
    intro p id strip
    obtain ⟨w, old⟩ := Option.isSome_iff_exists.mp (h.inFlight p id strip)
    rw [after old]
    rfl
  case closing =>
    intro id v n now closes
    obtain ⟨w, old, rfl⟩ := before now
    exact h.closing id w n old ((kept id w).2.symm.trans closes)
  case owner =>
    intro id v now opened
    obtain ⟨w, old, rfl⟩ := before now
    exact owner id w old ((kept id w).2.symm.trans opened)
  case adopted =>
    intro id v now
    obtain ⟨w, old, rfl⟩ := before now
    exact adopted id w old

/-- A FREE window opened for a port that is up, by which it is owned (R116). -/
theorem WindowsOk.opened {s : State} (h : WindowsOk s) {id : Nat} {w : Window} (free : s.window id = none) (bound : id < Config.windowCount)
    (opened : w.closing = none) (up : (s.port w.owner).isUp = true) (adopted : w.adopted = true ↔ w.owner ≠ w.origin) :
    WindowsOk (putWindow id w s) := by
  have other : ∀ {j v}, s.window j = some v → (putWindow id w s).window j = some v := fun {j v} old => by
    rw [window_putWindow, if_neg fun own => by rw [own, free] at old; cases old]
    exact old
  have before : ∀ {j v}, (putWindow id w s).window j = some v → j = id ∧ v = w ∨ s.window j = some v := fun {j v} now => by
    rw [window_putWindow] at now
    split at now
    next own => cases now; exact .inl ⟨own, rfl⟩
    · exact .inr now
  constructor
  case sorted => exact tablePut_sorted _ _ _ h.sorted
  case queued =>
    intro p cls e mem
    obtain ⟨own, v, old, rest⟩ := h.queued p cls e mem
    exact ⟨own, v, other old, rest⟩
  case inFlight =>
    intro p j strip
    obtain ⟨v, old⟩ := Option.isSome_iff_exists.mp (h.inFlight p j strip)
    rw [other old]
    rfl
  case ids =>
    intro j v now
    rcases before now with ⟨rfl, _⟩ | old
    · exact bound
    · exact h.ids j v old
  case closing =>
    intro j v n now closes
    rcases before now with ⟨_, rfl⟩ | old
    · cases opened.symm.trans closes
    · exact h.closing j v n old closes
  case owner =>
    intro j v now now'
    rcases before now with ⟨_, rfl⟩ | old
    · exact up
    · exact h.owner j v old now'
  case adopted =>
    intro j v now
    rcases before now with ⟨_, rfl⟩ | old
    · exact adopted
    · exact h.adopted j v old

/-! ### The end of an event (R135 to R137, R141) -/

theorem nextEntry_queued {c : ConsumerPort} {e : Entry} (next : c.nextEntry = some e) : ∃ cls, e ∈ c.queue cls := by
  unfold ConsumerPort.nextEntry at next
  split at next
  next queue =>
    cases next
    refine ⟨.essential, ?_⟩
    rw [ConsumerPort.queue, queue]
    exact List.mem_cons_self
  · exact ⟨.sheddable, List.mem_of_mem_head? next⟩

theorem mem_of_dropEntry {c : ConsumerPort} {cls : DeliveryClass} {e : Entry} (mem : e ∈ c.dropEntry.queue cls) : e ∈ c.queue cls := by
  unfold ConsumerPort.dropEntry at mem
  split at mem
  next first rest queue =>
    cases cls with
    | essential => rw [ConsumerPort.queue, queue]; exact List.mem_cons_of_mem first mem
    | sheddable => exact mem
  · cases cls with
    | essential => exact mem
    | sheddable => exact List.mem_of_mem_tail mem

/-- A strip is begun for an OPEN window (R118, R137). -/
theorem WindowsOk.beginStrip {s : State} (h : WindowsOk s) {p : Port} {e : Entry} (idle : (s.port p).outbound = none)
    (next : (s.port p).nextEntry = some e) : Redelivered s (beginStrip p e s) := by
  obtain ⟨cls, mem⟩ := nextEntry_queued next
  obtain ⟨_, w, now, opened, _⟩ := h.queued p cls e mem
  unfold Machine.beginStrip
  split
  next x b now' _ =>
    cases now.symm.trans now'
    split
    · exact .refl s
    · refine (Redelivered.putWindow s now (v := w.begun) rfl).setPort (fun other d mem => .inr ⟨p, mem_of_dropEntry ?_⟩)
        (.inr ⟨fun id own => ?_, fun id own => ?_⟩) fun up => ?_
      · cases other <;> exact mem
      · rw [ConsumerPort.stripWindow, idle] at own
        cases own
      · cases own
        exact ⟨w, now, opened⟩
      · have same : (s.port p).dropEntry.state = (s.port p).state := by
          unfold ConsumerPort.dropEntry
          split <;> rfl
        rw [ConsumerPort.isUp, same]
        exact up
  · exact .refl s

theorem WindowsOk.arbitrate {s : State} (h : WindowsOk s) (p : Port) : WindowsOk (arbitrate s p) := by
  refine h.redelivered ?_
  have sends : ∀ {c : ConsumerPort}, (s.port p).outbound = none → c.stripWindow = none → (∀ cls, c.queue cls = (s.port p).queue cls) →
      c.state = (s.port p).state → Redelivered s (s.setPort p c) := fun idle strip queue state =>
    .setPort_same s queue (by rw [strip, ConsumerPort.stripWindow, idle]) fun up => by rw [ConsumerPort.isUp, state]; exact up
  unfold Machine.arbitrate
  dsimp only
  split
  · exact .refl s
  · exact .refl s
  next idle _ =>
    split
    · exact sends idle rfl (fun cls => by cases cls <;> rfl) rfl
    · exact sends idle rfl (fun cls => by cases cls <;> rfl) rfl
    · split
      · exact .refl s
      next chosen => exact .ite (h.beginStrip idle chosen) (.refl s)

/-- The end of an event keeps the table and the queues in agreement. -/
theorem WindowsOk.settle {s : State} (h : WindowsOk s) : WindowsOk (settle s) := by
  have fold : ∀ (ps : List Port) {s : State}, WindowsOk s → WindowsOk (ps.foldl Machine.arbitrate s) := by
    intro ps
    induction ps with
    | nil => exact fun h => h
    | cons p ps ih => exact fun h => ih (h.arbitrate p)
  have judged : ∀ p, ∃ stall, (Machine.settle s).port p = { (allPorts.foldl Machine.arbitrate s).port p with stall := stall } := fun p => by
    rw [settle_port]
    exact judgeStall_kept _ _
  refine (fold allPorts h).redelivered (.of_ports rfl (fun p cls => ?_) (fun p => ?_) fun p => ?_)
  all_goals
    obtain ⟨_, port⟩ := judged p
    rw [port]
  · cases cls <;> rfl
  · rfl
  · exact id

/-! ### The failure of a port (8.8) -/

/-- No OPEN window is owned by a port. -/
def State.OwnsNone (s : State) (p : Port) : Prop := ∀ id w, s.window id = some w → w.closing = none → w.owner ≠ p

theorem State.OwnsNone.redelivered {s t : State} {p : Port} (h : s.OwnsNone p) (r : Redelivered s t) : t.OwnsNone p := by
  intro id v now opened
  obtain ⟨w, old, owner, _, _, _, closing⟩ := r.before now
  rw [owner]
  exact h id w old (closing.symm.trans opened)

/-- A window's record after the windows of a failed port are adopted (R145). -/
def Window.adoptedFrom (w : Window) (p st : Port) : Window :=
  if w.owner = p ∧ w.closing = none then { w with owner := st, adopted := decide (st ≠ w.origin) } else w

theorem adoptWindows_eq (p st : Port) (s : State) :
    adoptWindows p st s = s.withWindows (s.windows.map fun x => (x.1, x.2.adoptedFrom p st)) := by
  refine congrArg s.withWindows (List.map_congr_left fun x _ => ?_)
  unfold Window.adoptedFrom
  split <;> rfl

theorem adoptWindows_window (p st : Port) (s : State) (id : Nat) :
    (adoptWindows p st s).window id = (s.window id).map fun w => w.adoptedFrom p st := by
  rw [adoptWindows_eq]
  exact tableGet_map (fun _ w => w.adoptedFrom p st) s.windows id

theorem WindowsOk.adoptWindows {s : State} (h : WindowsOk s) {p st : Port} (up : (s.port st).isUp = true) :
    WindowsOk (adoptWindows p st s) := by
  rw [adoptWindows_eq]
  refine h.handedOver (fun _ w => w.adoptedFrom p st) ?_ (tableGet_map (fun _ w => w.adoptedFrom p st) s.windows) (fun id w => ?_)
    (fun id w old opened => ?_) fun id w old => ?_
  · exact List.pairwise_map.mpr h.sorted
  all_goals
    unfold Window.adoptedFrom
    split
  · exact ⟨rfl, rfl⟩
  · exact ⟨rfl, rfl⟩
  · exact up
  · exact h.owner id w old opened
  · exact decide_eq_true_iff
  · exact h.adopted id w old

/-- The failure handling of a port with a standby that adopts hands over every OPEN window of the port (R145, R146). -/
theorem WindowsOk.adoptAll {s : State} (h : WindowsOk s) {p st : Port} (up : (s.port st).isUp = true) (other : st ≠ p) :
    WindowsOk (adoptAll p st s) ∧ (adoptAll p st s).OwnsNone p := by
  have left : (Machine.adoptWindows p st s).OwnsNone p := by
    intro id v now opened
    rw [adoptWindows_window, Option.map_eq_some_iff] at now
    obtain ⟨w, _, rfl⟩ := now
    unfold Window.adoptedFrom at opened ⊢
    split
    · exact other
    next not =>
      rw [if_neg not] at opened
      exact fun own => not ⟨own, opened⟩
  have moved := ((moveQueue_redelivered p st .essential (Machine.adoptWindows p st s)).trans (moveQueue_redelivered p st .sheddable _)).trans
    (.of_raises (t := Machine.adoptAll p st s) rfl (raiseWhere_raises _ _ _))
  exact ⟨(h.adoptWindows up).redelivered moved, left.redelivered moved⟩

theorem mem_ownedWindows {s : State} {p : Port} {id : Nat} {w : Window} (now : s.window id = some w) (owner : w.owner = p)
    (opened : w.closing = none) : id ∈ ownedWindows p s :=
  List.mem_map.mpr ⟨(id, w), List.mem_filter.mpr ⟨mem_of_tableGet now, decide_eq_true ⟨owner, opened⟩⟩, rfl⟩

/-- The failure handling without a standby: every queued entry lost, and at a link loss every OPEN window of the port closed (R120, R147). -/
theorem WindowsOk.releaseAll {s : State} (h : WindowsOk s) (p : Port) (linkLoss : Bool) :
    WindowsOk (releaseAll p linkLoss s) ∧ (linkLoss = true → (releaseAll p linkLoss s).OwnsNone p) := by
  have close : ∀ (ids : List Nat) {u : State}, WindowsOk u → (∀ id w, u.window id = some w → w.closing = none → w.owner = p → id ∈ ids) →
      WindowsOk (ids.foldl (fun s id => Machine.closeWindow id s) u)
      ∧ (ids.foldl (fun s id => Machine.closeWindow id s) u).OwnsNone p := by
    intro ids
    induction ids with
    | nil => exact fun ok listed => ⟨ok, fun id w now opened owner => nomatch listed id w now opened owner⟩
    | cons id ids ih =>
      refine fun ok listed => ih (ok.closeWindow id) fun other w now opened owner => ?_
      obtain ⟨ne, old⟩ := closeWindow_open now opened
      exact (List.mem_cons.mp (listed other w old opened owner)).resolve_left ne
  have emptied : Redelivered s (s.setPort p { s.port p with essential := [], sheddable := [] }) :=
    (Redelivered.refl s).setPort (fun cls => by cases cls <;> exact nofun) (.inl rfl) id
  have released := h.redelivered (emptied.trans (.foldl (loseEntry_redelivered p) ((s.port p).essential ++ (s.port p).sheddable) _))
  have closed := close _ released fun id w now opened owner => mem_ownedWindows now owner opened
  unfold Machine.releaseAll
  dsimp only
  split
  · exact ⟨closed.1, fun _ => closed.2⟩
  next not => exact ⟨released, fun loss => absurd loss not⟩

/-- The failure of a port keeps the table and the queues in agreement; at a link loss the port is left without OPEN windows. -/
theorem WindowsOk.failPort {s : State} (h : WindowsOk s) (p : Port) (linkLoss : Bool) :
    WindowsOk (failPort p linkLoss s) ∧ (linkLoss = true → (failPort p linkLoss s).OwnsNone p) := by
  unfold Machine.failPort
  split
  next st adopts =>
    unfold adopter at adopts
    split at adopts
    · cases adopts
    · split at adopts
      next able =>
        cases adopts
        have up : (s.port st).isUp = true := by
          have live := able.2
          simp only [ConsumerPort.isLive, beq_iff_eq] at live
          simp [ConsumerPort.isUp, live]
        obtain ⟨ok, left⟩ := h.adoptAll (p := p) up able.1
        exact ⟨ok, fun _ => left⟩
      · cases adopts
  · exact h.releaseAll p linkLoss

/-- A port that owns no OPEN window may go DOWN (R148). -/
theorem WindowsOk.downPort {s : State} (h : WindowsOk s) {p : Port} (left : s.OwnsNone p) : WindowsOk (s.setPort p (downPort (s.port p))) := by
  have queue : ∀ q cls, ((s.setPort p (Machine.downPort (s.port p))).port q).queue cls = (s.port q).queue cls := fun q cls => by
    rw [State.port_setPort]
    split
    next own => rw [own]; cases cls <;> rfl
    · rfl
  have strip : ∀ q, ((s.setPort p (Machine.downPort (s.port p))).port q).stripWindow = (s.port q).stripWindow := fun q => by
    rw [State.port_setPort]
    split
    next own => rw [own]; rfl
    · rfl
  refine ⟨h.sorted, h.ids, fun q cls e mem => h.queued q cls e (queue q cls ▸ mem), fun q id own => h.inFlight q id (strip q ▸ own),
    fun id w n now closes => ?_, fun id w now opened => ?_, h.adopted⟩
  · rw [stripsInFlight_congr (s := s) fun q => by rw [strip q]]
    exact h.closing id w n now closes
  · rw [State.port_setPort_ne _ _ (left id w now opened)]
    exact h.owner id w now opened

/-- The end of a strip leaves the table as it is, of a window that is OPEN (R119). -/
theorem closingStripEnd_open {s : State} {id : Nat} {w : Window} (now : s.window id = some w) (opened : w.closing = none) :
    closingStripEnd id s = s := by
  unfold closingStripEnd
  rw [now]
  dsimp only
  rw [opened]

/-- The strip of a port ends, completed or aborted: of the ports only the strip is gone, and of the table the strip is counted off where
its window is CLOSING (R119, R144). -/
theorem WindowsOk.stripGone {s t : State} (h : WindowsOk s) {p : Port} {id : Nat} (own : (s.port p).stripWindow = some id)
    (windows : t.windows = (closingStripEnd id s).windows) (queue : ∀ q cls, (t.port q).queue cls = (s.port q).queue cls)
    (idle : (t.port p).stripWindow = none) (others : ∀ q, q ≠ p → (t.port q).stripWindow = (s.port q).stripWindow)
    (up : ∀ q, (s.port q).isUp = true → (t.port q).isUp = true) : WindowsOk t := by
  obtain ⟨w, now⟩ := Option.isSome_iff_exists.mp (h.inFlight p id own)
  cases closes : w.closing with
  | some n => exact h.stripEnded own now closes windows queue idle others up
  | none =>
    rw [closingStripEnd_open now closes] at windows
    refine h.redelivered ⟨fun sorted => by rw [windows]; exact sorted, fun j => by rw [State.window, windows]; rfl,
      fun q cls e mem => .inr ⟨q, queue q cls ▸ mem⟩, fun q => ?_, up⟩
    by_cases same : q = p
    · subst same
      refine .inr ⟨fun j strip => ?_, fun j strip => ?_⟩
      · cases own.symm.trans strip
        exact ⟨w, now, closes⟩
      · rw [idle] at strip
        cases strip
    · exact .inl (others q same)

/-- A port that has lost its link, with its strip aborted and what it held to send gone (R143, R144). -/
theorem WindowsOk.cutLink {s : State} (h : WindowsOk s) (p : Port) : WindowsOk (cutLink p s) := by
  set lost := s.setPort p { s.port p with linkUp := false, stall := none } with unplug
  have unplugged : Redelivered s lost := .setPort_same s (fun cls => by cases cls <;> rfl) rfl id
  have sending : (lost.port p).outbound = (s.port p).outbound := by rw [unplug, State.port_setPort_self]
  have silent : (lost.port p).stripWindow = none →
      WindowsOk (lost.setPort p { lost.port p with outbound := none, responses := [], notice := none }) := fun strip =>
    h.redelivered (unplugged.trans (.setPort_same lost (fun cls => by cases cls <;> rfl) strip.symm id))
  unfold Machine.cutLink abortStrip
  rw [← unplug, sending]
  dsimp only
  split
  next e _ strip =>
    have freed := releaseSlot_redelivered e.slot lost
    set u := releaseSlot e.slot lost
    have ok : WindowsOk u := h.redelivered (unplugged.trans freed)
    have own : (u.port p).stripWindow = some e.window := by
      obtain ⟨_, _, port⟩ := (releaseSlot_raises e.slot lost).kept p
      rw [port]
      show (lost.port p).stripWindow = _
      rw [ConsumerPort.stripWindow, sending, strip]
    obtain ⟨w, now⟩ := Option.isSome_iff_exists.mp (ok.inFlight p _ own)
    rw [now]
    dsimp only
    cases closes : w.closing with
    | none =>
      have counted := (markLost_redelivered e.window u).trans (countDropped_redelivered p _)
      refine ok.redelivered (counted.setPort (fun cls x mem => counted.queued p cls x ?_) (.inr ⟨fun id strip => ?_, nofun⟩) id)
      · cases cls <;> exact mem
      · cases own.symm.trans strip
        exact ⟨w, now, closes⟩
    | some n =>
      rw [if_neg (by simp : ¬ (some n).isNone = true)]
      have port : ∀ q, ((closingStripEnd e.window u).setPort p { (closingStripEnd e.window u).port p with
          outbound := none, responses := [], notice := none }).port q
          = if q = p then { u.port q with outbound := none, responses := [], notice := none } else u.port q := fun q => by
        rw [State.port_setPort, closingStripEnd_port, closingStripEnd_port]
        split
        next own => rw [own]
        · rfl
      refine ok.stripEnded own now closes rfl (fun q cls => ?_) ?_ (fun q ne => ?_) fun q up => ?_
      · rw [port]
        split
        · cases cls <;> rfl
        · rfl
      · rw [port, if_pos rfl]
        rfl
      · rw [port, if_neg ne]
      · rw [port]
        split <;> exact up
  next strip => exact silent (by rw [ConsumerPort.stripWindow, sending, strip])
  next strip => exact silent (by rw [ConsumerPort.stripWindow, sending, strip])
  next strip => exact silent (by rw [ConsumerPort.stripWindow, sending, strip])

end Sys2Proof.Machine
end

section
/-!
SUPPORT. The window table with the delivery queues under every command: the actions of the requests, the answers, the ends of frames and
strips, the timers, the links and the resets.
-/

namespace Sys2Proof.Machine

/-! ### The actions of the requests -/

/-- The action of a request, whatever its frame, keeps a property of the state. -/
def ActsKeep (P : State → Prop) (act : RequestFrame → State → State × Answer) : Prop := ∀ f s, P s → P (act f s).1

namespace ActsKeep

variable {P : State → Prop} {act : RequestFrame → State → State × Answer}

theorem asHolder (p : Port) (h : ActsKeep P act) : ActsKeep P (asHolder p act) := by
  intro f s
  unfold Machine.asHolder
  split
  · exact h f s
  · exact id

theorem unlessCommit (h : ActsKeep P act) : ActsKeep P (unlessCommit act) := by
  intro f s
  unfold Machine.unlessCommit
  split
  · exact id
  · exact h f s

theorem unlessSearching (h : ActsKeep P act) : ActsKeep P (unlessSearching act) := by
  intro f s
  unfold Machine.unlessSearching
  split
  · exact id
  · exact h f s

/-- The action of a request with fields, for a property that is kept for all fields. -/
theorem withFields {α : Type} {read : List Byte → Option α} {act : α → State → State × Answer}
    (h : ∀ x s, P s → P (act x s).1) : ActsKeep P (withFields read act) := by
  intro f s
  unfold Machine.withFields
  split
  · exact id
  · exact h _ s

theorem inform {α : Type} {read : List Byte → Option α} (answer : α → State → Answer) :
    ActsKeep P (Machine.withFields read fun x => Machine.inform (answer x)) := withFields fun _ _ => id

/-- The action of a request that a LIVE port alone may make. -/
theorem ifLive {p : Port} {α : Type} {read : List Byte → Option α} {act : α → State → State × Answer}
    (h : ∀ x s, (s.port p).isLive = true → P s → P (act x s).1) : ActsKeep P (ifLive p (Machine.withFields read act)) := by
  intro f s
  unfold Machine.ifLive
  split
  next live =>
    unfold Machine.withFields
    split
    · exact id
    · exact h _ s live
  · exact id

end ActsKeep

/-- The windows as they were, and no more than notices raised at the ports. -/
theorem WindowsOk.raised {s t : State} (h : WindowsOk s) (windows : t.windows = s.windows) (raises : OnlyRaises s t) : WindowsOk t :=
  h.redelivered (.of_raises windows raises)

/-- The table and the queues speak of the windows and the ports alone. -/
theorem WindowsOk.congr {s t : State} (h : WindowsOk s) (windows : t.windows = s.windows) (ports : t.ports = s.ports) : WindowsOk t :=
  h.raised windows (.of_ports ports)

/-- A port replaced by one with the same entries and the same strip, and up if it was up. -/
theorem WindowsOk.setPort {s : State} (h : WindowsOk s) {p : Port} {c : ConsumerPort} (essential : c.essential = (s.port p).essential)
    (sheddable : c.sheddable = (s.port p).sheddable) (strip : c.stripWindow = (s.port p).stripWindow)
    (up : (s.port p).isUp = true → c.isUp = true) : WindowsOk (s.setPort p c) :=
  h.redelivered (.setPort_same s (fun cls => by cases cls <;> assumption) strip up)

theorem WindowsOk.repeatRestart (x : Unit) (s : State) (h : WindowsOk s) : WindowsOk (repeatRestart x s).1 :=
  (h.congr (t := s.withRu { s.ru with restart := some .requested, chain := none }) rfl rfl).raised
    ((goLock_agree (A := [.ru, .ports]) _ _ (by decide) (by decide)).windows (by decide)) (goLock_raises _ _)

theorem WindowsOk.setRepeat (r : RepeatSettings) (s : State) (h : WindowsOk s) : WindowsOk (setRepeat r s).1 := by
  unfold Machine.setRepeat
  split
  · exact h.congr rfl rfl
  · exact h

theorem WindowsOk.setMotion (r : MotionSettings) (s : State) (h : WindowsOk s) : WindowsOk (setMotion r s).1 := by
  unfold Machine.setMotion
  split
  · exact h.congr rfl rfl
  · exact h

theorem WindowsOk.setLane (f : LaneFields) (s : State) (h : WindowsOk s) : WindowsOk (setLane f s).1 := by
  unfold Machine.setLane
  split
  · exact h
  · split
    · exact h.congr rfl rfl
    · exact h

theorem WindowsOk.pageClear (x : Unit) (s : State) (h : WindowsOk s) : WindowsOk (pageClear x s).1 := h.congr rfl rfl

theorem WindowsOk.pageSeek (e : Nat) (s : State) (h : WindowsOk s) : WindowsOk (pageSeek e s).1 := by
  unfold Machine.pageSeek
  split
  · exact h.congr rfl rfl
  · exact h

theorem WindowsOk.pageFill (es : List Correction) (s : State) (h : WindowsOk s) : WindowsOk (pageFill es s).1 := by
  unfold Machine.pageFill
  split
  · exact h.congr rfl rfl
  · exact h

theorem WindowsOk.pageCommit (p : Port) (x : Nat × Nat) (s : State) (h : WindowsOk s) : WindowsOk (pageCommit p x s).1 := by
  have completed : ∀ k {s : State}, WindowsOk s → WindowsOk (completeCommit k s) := fun k {s} h =>
    h.redelivered (completeCommit_work k s).redelivered
  unfold Machine.pageCommit
  split
  · exact h
  next k _ =>
    split
    · have pends : WindowsOk (s.withCb { s.cb with commit := some { lane := k, page := x.2, port := p } }) := h.congr rfl rfl
      dsimp only
      split
      · exact pends
      · exact completed k pends
      · exact completed k pends
    · exact h

theorem WindowsOk.endSearch {s : State} (h : WindowsOk s) (x : Search) (cause : EndCause) (w : Line) : WindowsOk (endSearch x cause w s) :=
  h.raised ((endSearch_agree x cause w s).windows (by decide)) (endSearch_raises x cause w s)

theorem WindowsOk.levelStart (p : Port) (f : LevelFields) (s : State) (h : WindowsOk s) : WindowsOk (levelStart p f s).1 := by
  unfold Machine.levelStart
  split
  · exact h
  · split
    · dsimp only
      split
      · exact h.congr rfl rfl
      · exact h.endSearch _ _ _
    · exact h

theorem WindowsOk.levelAbort (x : Unit) (s : State) (h : WindowsOk s) : WindowsOk (levelAbort x s).1 := by
  unfold Machine.levelAbort
  split
  · exact h.endSearch _ _ _
  · exact h
  · exact h

theorem WindowsOk.setStore (f : StoreFields) (s : State) (h : WindowsOk s) : WindowsOk (setStore f s).1 := by
  unfold Machine.setStore
  split
  · have stored : WindowsOk ((s.withShared { s.shared with stallTimeout := f.stallTimeout, standby := f.standby }).withBsc
        { s.bsc with reserve := f.reserve }) := h.congr rfl rfl
    dsimp only
    split
    · exact stored.redelivered (judgePressure_redelivered _)
    · exact stored
  · exact h

theorem WindowsOk.grantCredit (p : Port) (n : Nat) (s : State) (h : WindowsOk s) : WindowsOk (grantCredit p n s).1 := by
  unfold Machine.grantCredit
  split
  · exact h.setPort rfl rfl rfl fun _ => rfl
  · exact h

/-- The claim taken or given up, with the notice to the other ports (R167, R168). -/
theorem WindowsOk.claimed {s : State} (h : WindowsOk s) (p : Port) (x : SharedRecord) : WindowsOk (raiseOthers p .claim (s.withShared x)) :=
  (h.congr (t := s.withShared x) rfl rfl).raised ((raiseWhere_agree (A := [.ports]) _ _ _ (by decide)).windows (by decide))
    (raiseWhere_raises _ _ _)

theorem WindowsOk.takeClaim (p : Port) (x : Unit) (s : State) (h : WindowsOk s) : WindowsOk (takeClaim p x s).1 := by
  unfold Machine.takeClaim
  split
  · exact h.claimed p _
  · split <;> exact h

theorem WindowsOk.releaseClaim (p : Port) (x : Unit) (s : State) (h : WindowsOk s) : WindowsOk (releaseClaim p x s).1 := by
  unfold Machine.releaseClaim
  split
  · exact h.claimed p _
  · exact h

theorem WindowsOk.setNotices (p : Port) (x : Bool × List NoticeKind) (s : State) (h : WindowsOk s) : WindowsOk (setNotices p x s).1 := by
  unfold Machine.setNotices
  split
  · exact h.setPort rfl rfl rfl id
  · exact h

theorem WindowsOk.takeStatus (p : Port) (x : Unit) (s : State) (h : WindowsOk s) : WindowsOk (takeStatus p x s).1 := h.setPort rfl rfl rfl id

theorem WindowsOk.beginRestart (p : Port) (x : Unit) (s : State) (h : WindowsOk s) : WindowsOk (beginRestart p x s).1 := h.congr rfl rfl

theorem WindowsOk.placeMarker (p : Port) (o : Output) (t : Line) (width : Nat) (s : State) (h : WindowsOk s) :
    WindowsOk (placeMarker p o t width s).1 := by
  unfold Machine.placeMarker
  dsimp only
  split
  · exact h.congr rfl rfl
  · split
    · exact h.congr rfl rfl
    · exact h

theorem WindowsOk.markOut (p : Port) (f : MarkFields) (s : State) (h : WindowsOk s) : WindowsOk (markOut p f s).1 := by
  have guarded : ∀ (c : Prop) [Decidable c] (code : ResponseCode) (r : State × Answer), WindowsOk r.1 →
      WindowsOk (if c then refuse code s else r).1 := by
    intro c _ code r kept
    split
    · exact h
    · exact kept
  unfold Machine.markOut
  split
  · split
    · exact h
    · exact guarded _ _ _ (guarded _ _ _ (guarded _ _ _ (h.placeMarker _ _ _ _ s)))
  · exact h

theorem WindowsOk.setMarkerOut (f : MarkerFields) (s : State) (h : WindowsOk s) : WindowsOk (setMarkerOut f s).1 := by
  unfold Machine.setMarkerOut
  split
  · exact h.congr rfl rfl
  · exact h

/-! ### The window requests (R116, R117, R121) -/

theorem isUp_of_isLive {c : ConsumerPort} (live : c.isLive = true) : c.isUp = true := by
  simp only [ConsumerPort.isLive, beq_iff_eq] at live
  simp [ConsumerPort.isUp, live]

/-- The FREE record with the lowest id. -/
theorem freeWindow_some {s : State} {id : Nat} (free : s.freeWindow = some id) :
    id < Config.windowCount ∧ s.window id = none ∧ ∀ j, j < id → (s.window j).isSome = true := by
  unfold State.freeWindow at free
  obtain ⟨none, bound, least⟩ := List.find?_range_eq_some.mp free
  refine ⟨List.mem_range.mp bound, Option.isNone_iff_eq_none.mp none, fun j below => ?_⟩
  have taken := least j below
  rwa [Bool.not_eq_true', Option.isNone_eq_false_iff] at taken

theorem WindowsOk.windowOpen (p : Port) (f : WindowFields) (s : State) (live : (s.port p).isLive = true) (h : WindowsOk s) :
    WindowsOk (windowOpen p f s).1 := by
  unfold Machine.windowOpen
  split
  · split
    · exact h
    next id free =>
      obtain ⟨bound, free, _⟩ := freeWindow_some free
      exact h.opened free bound rfl (isUp_of_isLive live) (iff_of_false Bool.false_ne_true fun ne => ne rfl)
  · exact h

/-- A port may act on a window that is OPEN and whose owner or origin it is (R117, R121). -/
theorem entitledWindow_ok {p : Port} {id : Nat} {s : State} {w : Window} (ok : entitledWindow p id s = .ok w) :
    s.window id = some w ∧ w.closing = none := by
  unfold entitledWindow at ok
  split at ok
  · split at ok
    · cases ok
    next v now =>
      split at ok
      next able => cases ok; exact ⟨now, able.1⟩
      · cases ok
  · cases ok

theorem WindowsOk.windowClose (p : Port) (id : Nat) (s : State) (h : WindowsOk s) : WindowsOk (windowClose p id s).1 := by
  unfold Machine.windowClose
  split
  · exact h
  · exact h.closeWindow id

/-- A window's record after it is given back to its origin (R121). -/
def Window.returned (w : Window) : Window := { w with owner := w.origin, adopted := false }

theorem WindowsOk.windowReturn (p : Port) (id : Nat) (s : State) (h : WindowsOk s) : WindowsOk (windowReturn p id s).1 := by
  unfold Machine.windowReturn
  split
  · exact h
  next w ok =>
    split
    next able =>
      obtain ⟨now, _⟩ := entitledWindow_ok ok
      refine h.handedOver (fun j v => if j = id then v.returned else v) (tablePut_sorted _ _ _ h.sorted) (fun j => ?_) (fun j v => ?_)
        (fun j v old opened => ?_) fun j v old => ?_
      · rw [tableGet_put]
        split
        next own => rw [own, now]; rfl
        · exact (congrFun Option.map_id _).symm
      all_goals split
      · exact ⟨rfl, rfl⟩
      · exact ⟨rfl, rfl⟩
      next own =>
        rw [own, now] at old
        cases old
        exact isUp_of_isLive able.2
      · exact h.owner j v old opened
      · exact iff_of_false Bool.false_ne_true fun ne => ne rfl
      · exact h.adopted j v old
    · exact h

end Sys2Proof.Machine
end

section
/-!
SUPPORT AND PROOF. The window table with the delivery queues under the answers, the ends of frames and strips, the timers, the links and
the resets, and with them under every step.
-/

namespace Sys2Proof.Machine

/-! ### Answers and the request queue -/

theorem WindowsOk.respond {s : State} (h : WindowsOk s) (p : Port) (f : RequestFrame) (a : Answer) : WindowsOk (respond p f a s) :=
  h.setPort rfl rfl rfl id

theorem WindowsOk.takeRequest {s t : State} {p : Port} {kind : Option RequestKind} {act : RequestFrame → State → State × Answer}
    (keeps : ActsKeep WindowsOk act) (h : WindowsOk s) (e : takeRequest p kind act s = .next t) : WindowsOk t := by
  unfold Machine.takeRequest at e
  split at e
  · cases e; exact h
  next f rest _ =>
    split at e
    · cases e
      exact ((keeps f _ (h.setPort (c := { s.port p with requests := rest }) rfl rfl rfl id)).respond p f _).settle
    · cases e; exact h

theorem WindowsOk.countRequestError {s : State} (h : WindowsOk s) (p : Port) : WindowsOk (countRequestError p s) := h.setPort rfl rfl rfl id

theorem WindowsOk.acceptFrame {s : State} (h : WindowsOk s) (p : Port) (f : RequestFrame) : WindowsOk (acceptFrame p f s) := by
  unfold Machine.acceptFrame
  extract_lets c
  split
  · exact h.setPort rfl rfl rfl id
  · split
    · exact h.respond p f _
    · exact h.countRequestError p

theorem WindowsOk.execRequestArrival {s t : State} {p : Port} {bytes : List Byte} (h : WindowsOk s)
    (e : execRequestArrival p bytes s = .next t) : WindowsOk t := by
  unfold Machine.execRequestArrival at e
  split at e
  · split at e
    · cases e; exact (h.countRequestError p).settle
    · cases e; exact (h.acceptFrame p _).settle
  · cases e; exact h

/-! ### Lines, triggers and counts -/

theorem WindowsOk.storeWork {s u t : State} (h : WindowsOk s) (work : StoreWork s u)
    (e : (Host.Outcome.next (Machine.settle u) : Host.Outcome State Fault Refusal) = .next t) : WindowsOk t := by
  cases e
  exact (h.redelivered work.redelivered).settle

theorem markTransition_work (edge : MarkDirection) (s : State) : StoreWork s (markTransition edge s) :=
  .of_agree (A := [.ru, .ports]) (markTransition_agree edge s (by decide) (by decide)) (markTransition_raises edge s)

theorem levelSpan_work (w : Line) (s : State) : StoreWork s (levelSpan w s) := .of_agree (levelSpan_agree w s) (levelSpan_raises w s)

theorem WindowsOk.execStopTimerExpiry {s t : State} (h : WindowsOk s) (e : execStopTimerExpiry s = .next t) : WindowsOk t := by
  unfold Machine.execStopTimerExpiry at e
  split at e
  · cases e; exact h
  next due _ =>
    have stopped : WindowsOk ((s.clockAt due).withMu { s.mu with motion := .stopped, stopTimer := none }) := h.congr rfl rfl
    exact stopped.storeWork ((stopSeal_work _).trans (.raiseWhere _ _ _)) e

/-! ### Resets -/

theorem windowsOk_powerOnReset (inputs : EncInputs) (s : State) : WindowsOk (powerOnReset inputs s) :=
  windowsOk_of_reset rfl fun p => ⟨_, _, PerPort.get_map _ _ p⟩

theorem windowsOk_restartReset (s : State) : WindowsOk (restartReset s) := windowsOk_of_reset rfl fun p => ⟨_, _, PerPort.get_map _ _ p⟩

/-! ### Frames, links and stalls -/

/-- A DOWN port holds no entries and sends nothing (R148), as a port whose link has come up (R132). -/
theorem WindowsOk.execSteeringLinkUp {s t : State} {p : Port} (ports : PortsOk s) (h : WindowsOk s) (e : execSteeringLinkUp p s = .next t) :
    WindowsOk t := by
  unfold Machine.execSteeringLinkUp at e
  dsimp only at e
  split at e
  next down =>
    cases e
    obtain ⟨_, essential, sheddable, outbound, _⟩ := ports.quiet p down
    refine h.setPort essential.symm sheddable.symm ?_ fun _ => rfl
    rw [ConsumerPort.stripWindow, ConsumerPort.stripWindow, outbound]
    rfl
  · cases e; exact h
  · cases e; exact h

theorem WindowsOk.execFrameCompletion {s t : State} {p : Port} (h : WindowsOk s) (e : execFrameCompletion p s = .next t) : WindowsOk t := by
  have sent : (s.port p).stripWindow = none → WindowsOk (Machine.settle (s.setPort p { s.port p with outbound := none })) := fun strip => by
    have idle : WindowsOk (s.setPort p { s.port p with outbound := none }) := h.setPort rfl rfl strip.symm id
    exact idle.settle
  unfold Machine.execFrameCompletion at e
  split at e
  next frame =>
    split at e
    · cases e; exact windowsOk_restartReset s
    · cases e; exact sent (by rw [ConsumerPort.stripWindow, frame])
  next frame => cases e; exact sent (by rw [ConsumerPort.stripWindow, frame])
  · cases e; exact h
  · cases e; exact h

/-- The frame of a strip is complete: the strip is counted off at a CLOSING window (R119). -/
theorem WindowsOk.execStripCompletion {s t : State} {p : Port} (h : WindowsOk s) (e : execStripCompletion p s = .next t) : WindowsOk t := by
  unfold Machine.execStripCompletion at e
  split at e
  next x _ strip =>
    cases e
    refine WindowsOk.settle ?_
    have ports : ∀ q, ∃ pending notice, (releaseSlot x.slot (s.setPort p { s.port p with outbound := none })).port q
        = { (if q = p then { s.port q with outbound := none } else s.port q) with pendingSet := pending, notice := notice } := fun q => by
      obtain ⟨pending, notice, port⟩ := (releaseSlot_raises x.slot (s.setPort p { s.port p with outbound := none })).kept q
      refine ⟨pending, notice, port.trans ?_⟩
      rw [State.port_setPort]
      split
      next own => rw [own]
      · rfl
    refine h.stripGone (p := p) (id := x.window) (by rw [ConsumerPort.stripWindow, strip])
      (closingStripEnd_congr x.window (releaseSlot_windows _ _)) (fun q cls => ?_) ?_ (fun q ne => ?_) fun q up => ?_
    all_goals rw [closingStripEnd_port]
    · obtain ⟨_, _, port⟩ := ports q
      rw [port]
      split <;> cases cls <;> rfl
    · obtain ⟨_, _, port⟩ := ports p
      rw [port, if_pos rfl]
      rfl
    · obtain ⟨_, _, port⟩ := ports q
      rw [port, if_neg ne]
      rfl
    · obtain ⟨_, _, port⟩ := ports q
      rw [port]
      split <;> exact up
  all_goals cases e; exact h

theorem WindowsOk.execStallTimerExpiry {s t : State} {p : Port} (h : WindowsOk s) (e : execStallTimerExpiry p s = .next t) : WindowsOk t := by
  unfold Machine.execStallTimerExpiry at e
  split at e
  next due _ _ =>
    cases e
    have clocked : WindowsOk (s.clockAt due) := h.congr rfl rfl
    have stalled : WindowsOk ((s.clockAt due).setPort p { s.port p with state := .stalled, stall := none }) :=
      clocked.setPort rfl rfl rfl fun _ => rfl
    exact ((stalled.redelivered (StoreWork.raiseWhere _ _ _).redelivered).failPort p false).1.settle
  · cases e; exact h

theorem WindowsOk.dropClaim {s : State} (h : WindowsOk s) (p : Port) : WindowsOk (dropClaim p s) := by
  unfold Machine.dropClaim
  split
  · exact h.claimed p _
  · exact h

theorem WindowsOk.execSteeringLinkLoss {s t : State} {p : Port} (h : WindowsOk s) (e : execSteeringLinkLoss p s = .next t) : WindowsOk t := by
  obtain ⟨failed, left⟩ := (h.cutLink p).failPort p true
  unfold Machine.execSteeringLinkLoss at e
  split at e
  · cases e; exact h
  all_goals
    split at e
    · cases e; exact windowsOk_restartReset _
    · cases e; exact ((failed.downPort (left rfl)).dropClaim p).settle

/-! ### Every command -/

/-- Every command keeps the window table in agreement with the delivery queues: one whose frame spares the windows and the ports leaves both
as they are. -/
theorem WindowsOk.exec {c : Instr} {s t : State} (ports : PortsOk s) (h : WindowsOk s) (e : exec c s = .next t) : WindowsOk t := by
  by_cases spared : Part.windows ∉ touched c ∧ Part.ports ∉ touched c
  · obtain ⟨u, hu, agree⟩ := commandFrames c s
    rw [hu] at e
    cases e
    exact h.congr (agree.windows spared.1) (agree.ports spared.2)
  · cases c with
    | powerOn inputs => cases e; exact windowsOk_powerOnReset inputs s
    | encoderCount inputs => exact h.storeWork (encoderChange_work inputs s) e
    | stopTimerExpiry => exact h.execStopTimerExpiry e
    | setMotion p => exact h.takeRequest (.asHolder p (.withFields WindowsOk.setMotion)) e
    | markEdge edge => exact h.storeWork (markTransition_work edge s) e
    | repeatRestart p => exact h.takeRequest (.asHolder p (.withFields WindowsOk.repeatRestart)) e
    | setRepeat p => exact h.takeRequest (.asHolder p (.withFields WindowsOk.setRepeat)) e
    | snapshot p => exact h.takeRequest (.inform _) e
    | log p => exact h.takeRequest (.inform _) e
    | setLane p => exact h.takeRequest (.asHolder p (.withFields WindowsOk.setLane)) e
    | lineArrival k frame => exact h.storeWork (arriveLine_work k frame s) e
    | laneLinkLoss k => exact h.storeWork (loseLaneLink_work k s) e
    | laneLinkReturn k => exact h.storeWork (returnLaneLink_work k s) e
    | laneInfo p => exact h.takeRequest (.inform _) e
    | pageClear p => exact h.takeRequest (.asHolder p (.unlessCommit (.withFields WindowsOk.pageClear))) e
    | pageSeek p => exact h.takeRequest (.asHolder p (.unlessCommit (.withFields WindowsOk.pageSeek))) e
    | pageFill p => exact h.takeRequest (.asHolder p (.unlessCommit (.withFields WindowsOk.pageFill))) e
    | pageCommit p => exact h.takeRequest (.asHolder p (.unlessCommit (.withFields (WindowsOk.pageCommit p)))) e
    | tableRead p => exact h.takeRequest (.inform _) e
    | levelStart p => exact h.takeRequest (.asHolder p (.unlessSearching (.withFields (WindowsOk.levelStart p)))) e
    | spanEnd => exact h.storeWork (levelSpan_work _ s) e
    | levelAbort p => exact h.takeRequest (.asHolder p (.withFields WindowsOk.levelAbort)) e
    | levelResults p => exact h.takeRequest (.inform _) e
    | setStore p => exact h.takeRequest (.asHolder p (.withFields WindowsOk.setStore)) e
    | windowOpen p => exact h.takeRequest (.ifLive (WindowsOk.windowOpen p)) e
    | windowClose p => exact h.takeRequest (.withFields (WindowsOk.windowClose p)) e
    | windowReturn p => exact h.takeRequest (.withFields (WindowsOk.windowReturn p)) e
    | windowInfo p => exact h.takeRequest (.inform _) e
    | steeringLinkUp p => exact h.execSteeringLinkUp ports e
    | grant p => exact h.takeRequest (.withFields (WindowsOk.grantCredit p)) e
    | frameCompletion p => exact h.execFrameCompletion e
    | stripCompletion p => exact h.execStripCompletion e
    | stallTimerExpiry p => exact h.execStallTimerExpiry e
    | steeringLinkLoss p => exact h.execSteeringLinkLoss e
    | requestArrival p bytes => exact h.execRequestArrival e
    | badKind p => exact h.takeRequest (act := fun _ => refuse .badKind) (fun _ _ => id) e
    | claim p => exact h.takeRequest (.withFields (WindowsOk.takeClaim p)) e
    | release p => exact h.takeRequest (.withFields (WindowsOk.releaseClaim p)) e
    | notices p => exact h.takeRequest (.withFields (WindowsOk.setNotices p)) e
    | status p => exact h.takeRequest (.withFields (WindowsOk.takeStatus p)) e
    | restart p => exact h.takeRequest (.asHolder p (.withFields (WindowsOk.beginRestart p))) e
    | markOut p => exact h.takeRequest (.ifLive fun x s _ => WindowsOk.markOut p x s) e
    | setMarkerOut p => exact h.takeRequest (.asHolder p (.withFields WindowsOk.setMarkerOut)) e
    | _ => exact absurd (by simp [touched]) spared

/-- Settles O12: only the window requests, a failed port and the end of a strip change a window's parties or its state, and each of them
keeps the queues and the strips in agreement with it. -/
theorem stepKeepsWindows : Obligations.StepKeepsWindows := by
  unfold Obligations.StepKeepsWindows
  intro s t ports h e
  unfold Machine.step at e
  split at e
  · cases e; exact h.congr rfl rfl
  next c rest _ =>
    have shifted : PortsOk (s.withPending rest) := ⟨ports.link, ports.quiet, ports.holder, ports.restart⟩
    exact (h.congr (t := s.withPending rest) rfl rfl).exec shifted e

end Sys2Proof.Machine
end

section
/-!
SUPPORT AND PROOF. The matching of a sealed band (7.6): the candidate tests, the three conditions, and the order of the judgments.
-/

namespace Sys2Proof.Machine

/-! ### One window judged (R124 to R127) -/

/-- An OPEN window whose lane set, columns, stride and lines meet the band (R124). -/
theorem candidate_iff (w : Window) (b : Band) : w.candidate b = true ↔
    w.closing = none ∧ (∀ set, w.lanes = some set → set.get b.lane = true)
    ∧ w.c0 ≤ b.base + b.width - 1 ∧ b.base ≤ w.c1 ∧ b.rn.toNat % w.stride = w.phase ∧ w.l0 ≤ b.lastIrl
    ∧ ∀ l1, w.l1 = some l1 → b.startIrl ≤ l1 := by
  have tests : w.candidate b = true ↔ w.closing = none ∧ (∀ set, w.lanes = some set → set.get b.lane = true)
      ∧ w.c0 ≤ b.lastColumn ∧ b.base ≤ w.c1 ∧ b.rn.toNat % w.stride = w.phase ∧ w.l0 ≤ b.lastIrl
      ∧ ∀ l1, w.l1 = some l1 → b.startIrl ≤ l1 := by
    cases lanes : w.lanes <;> cases lines : w.l1 <;> simp [Window.candidate, lanes, lines, and_assoc]
  exact tests

/-- An entry is made for a LIVE owner, against pressure for ESSENTIAL alone, and below 256 entries (R126). -/
theorem entryAllowed_iff (w : Window) (s : State) : entryAllowed w s = true ↔ (s.port w.owner).state = .live
    ∧ (w.cls = .essential ∨ s.bsc.pressure = false) ∧ ((s.port w.owner).queue w.cls).length < 256 := by
  have conditions : entryAllowed w s = true ↔ (s.port w.owner).state = .live ∧ (w.cls = .essential ∨ s.bsc.pressure = false)
      ∧ ((s.port w.owner).queue w.cls).length < Config.queueCapacity := by
    simp [entryAllowed, ConsumerPort.isLive, and_assoc]
  exact conditions

theorem matchWindow_free {slot id n : Nat} {b : Band} {s : State} (free : s.window id = none) : matchWindow slot b (s, n) id = (s, n) := by
  unfold matchWindow
  rw [free]

theorem matchWindow_open {slot id n : Nat} {b : Band} {s : State} {w : Window} (now : s.window id = some w) : matchWindow slot b (s, n) id
    = if w.candidate b then
        if entryAllowed w s then (appendEntry w.owner (clipEntry slot id w b) s, n + 1) else (loseMatch id w s, n)
      else (s, n) := by
  unfold matchWindow
  rw [now]

/-- A lost match is counted at the window and at its owner, and sets GAP pending (R127). -/
theorem loseMatch_counts (id : Nat) (w : Window) (s : State) :
    (loseMatch id w s).window id = some { w with gap := true, dropped := w.dropped + 1 }
    ∧ (∀ other, other ≠ id → (loseMatch id w s).window other = s.window other)
    ∧ (loseMatch id w s).ports = s.ports.set w.owner { s.port w.owner with dropped := (s.port w.owner).dropped + 1 }
    ∧ State.Agree [.windows, .ports] s (loseMatch id w s) := by
  refine ⟨(window_putWindow id id _ s).trans (if_pos rfl), fun other ne => (window_putWindow id other _ s).trans (if_neg ne), rfl, ?_⟩
  exact (putWindow_agree id _ s (by decide)).trans (agree_setPort _ _ _ (by decide))

/-! ### Every window in ascending id (R123) -/

/-- The judgments of FREE windows leave no trace, so they may be left out. -/
theorem foldl_matchWindow_taken (slot : Nat) (b : Band) (ids : List Nat) : ∀ acc : State × Nat,
    (ids.filter fun id => (acc.1.window id).isSome).foldl (matchWindow slot b) acc = ids.foldl (matchWindow slot b) acc := by
  induction ids with
  | nil => exact fun acc => rfl
  | cons id ids ih =>
    intro acc
    rw [List.foldl_cons, List.filter_cons, ← ih]
    simp only [matchWindow_window_isSome]
    split
    · rfl
    next free =>
      rw [Option.not_isSome_iff_eq_none] at free
      rw [show matchWindow slot b acc id = acc from matchWindow_free free]

theorem tableGet_isSome_of_mem {α : Type} {t : List (Nat × α)} {k : Nat} {x : α} (mem : (k, x) ∈ t) : (tableGet t k).isSome = true := by
  induction t with
  | nil => cases mem
  | cons e t ih =>
    rw [tableGet]
    split
    · rfl
    next ne =>
      rcases List.mem_cons.mp mem with rfl | rest
      · exact absurd rfl ne
      · exact ih rest

theorem mem_windowIds (s : State) (id : Nat) : id ∈ s.windowIds ↔ (s.window id).isSome = true := by
  constructor
  · intro mem
    obtain ⟨⟨k, w⟩, listed, rfl⟩ := List.mem_map.mp mem
    exact tableGet_isSome_of_mem listed
  · intro taken
    obtain ⟨w, now⟩ := Option.isSome_iff_exists.mp taken
    exact List.mem_map.mpr ⟨(id, w), mem_of_tableGet now, rfl⟩

/-- The windows that are not FREE, in ascending id. -/
theorem WindowsOk.windowIds {s : State} (h : WindowsOk s) : s.windowIds = (List.range 64).filter fun id => (s.window id).isSome := by
  have ascending : s.windowIds.Pairwise (· < ·) := List.pairwise_map.mpr h.sorted
  refine ascending.eq_of_mem_iff (List.pairwise_lt_range.filter _) fun {id} => ?_
  rw [mem_windowIds, List.mem_filter, List.mem_range, iff_and_self]
  intro taken
  obtain ⟨w, now⟩ := Option.isSome_iff_exists.mp taken
  exact h.ids id w now

theorem foldl_matchWindow_count (slot : Nat) (b : Band) (ids : List Nat) :
    ∀ acc : State × Nat, (ids.foldl (matchWindow slot b) acc).2 ≤ acc.2 + ids.length := by
  induction ids with
  | nil => exact fun acc => Nat.le_refl _
  | cons id ids ih =>
    intro acc
    have one := matchWindow_count slot b acc id
    have rest := ih (matchWindow slot b acc id)
    rw [List.foldl_cons, List.length_cons]
    omega

theorem matchBand_range {s : State} (h : WindowsOk s) (slot : Nat) (b : Band) :
    matchBand slot b s = (List.range 64).foldl (matchWindow slot b) (s, 0) := by
  rw [matchBand, h.windowIds]
  exact foldl_matchWindow_taken slot b _ (s, 0)

/-! ### The clips (R125) -/

/-- The clips of a candidate are within the band and not empty. -/
theorem clipEntry_bounds (slot id : Nat) {w : Window} {b : Band} (least : w.c0 ≤ b.base + b.width - 1) (most : b.base ≤ w.c1)
    (first : w.l0 ≤ b.lastIrl) (last : ∀ l1, w.l1 = some l1 → b.startIrl ≤ l1 ∧ w.l0 ≤ l1) (columns : w.c0 ≤ w.c1) (wide : 1 ≤ b.width)
    (lines : b.startIrl ≤ b.lastIrl) (short : b.lastIrl < b.startIrl + 64) :
    1 ≤ (clipEntry slot id w b).lines ∧ (clipEntry slot id w b).lines ≤ 64
    ∧ 1 ≤ (clipEntry slot id w b).columns ∧ (clipEntry slot id w b).columns ≤ b.width := by
  have narrowed : (clipEntry slot id w b).columns = min (b.base + b.width - 1) w.c1 + 1 - max b.base w.c0 := rfl
  cases ends : w.l1 with
  | none =>
    have clipped : (clipEntry slot id w b).lines = b.lastIrl + 1 - max b.startIrl w.l0 := by rw [clipEntry, ends]
    omega
  | some l1 =>
    obtain ⟨after, ordered⟩ := last l1 ends
    have clipped : (clipEntry slot id w b).lines = min b.lastIrl l1 + 1 - max b.startIrl w.l0 := by rw [clipEntry, ends]
    omega

/-- Settles O47: the judgment follows the candidate tests and the three conditions, and every window that is not FREE is listed once, in
ascending id. -/
theorem matchOfWindow : Obligations.MatchOfWindow := by
  unfold Obligations.MatchOfWindow
  refine ⟨fun s slot n id b => ⟨matchWindow_free, fun w now => ?_⟩, fun s slot b h => ⟨matchBand_range h slot b, ?_⟩, ?_⟩
  · extract_lets last tests allowed
    have judged : w.candidate b = true ↔ w.closing = none ∧ tests := candidate_iff w b
    have able : entryAllowed w s = true ↔ allowed := entryAllowed_iff w s
    rw [matchWindow_open now]
    refine ⟨fun passed => if_neg ?_, fun opened meets may => ?_, fun opened meets lost => ?_⟩
    · rw [judged]
      rintro ⟨opened, meets⟩
      rcases passed with closing | fails
      · rw [opened] at closing
        cases closing
      · exact fails meets
    · rw [if_pos (judged.mpr ⟨opened, meets⟩), if_pos (able.mpr may)]
      rfl
    · rw [if_pos (judged.mpr ⟨opened, meets⟩), if_neg (fun may => lost (able.mp may))]
      exact ⟨_, rfl, loseMatch_counts id w s⟩
  · rw [matchBand_range h]
    exact (foldl_matchWindow_count slot b _ (s, 0)).trans (by simp)
  · intro slot id w b least most first last columns wide lines short
    exact clipEntry_bounds slot id least most first last columns wide lines short

end Sys2Proof.Machine
end

section
/-!
SUPPORT AND PROOF. WINDOW_OPEN (R115, R116) and WINDOW_RETURN (R121): the fields read back, the checks, and a change of the window table in
a settled state.
-/

namespace Sys2Proof.Machine

/-! ### The fields of WINDOW_OPEN read back (11.3) -/

theorem map_toNat_flatMap_leBytes {ks : List Nat} (fits : ∀ k ∈ ks, k < 256) : (ks.flatMap (leBytes 1)).map (·.toNat) = ks := by
  induction ks with
  | nil => rfl
  | cons k ks ih =>
    rw [List.forall_mem_cons] at fits
    have first : ((k :: ks).flatMap (leBytes 1)).map (·.toNat) = (BitVec.ofNat 8 k).toNat :: (ks.flatMap (leBytes 1)).map (·.toNat) := rfl
    rw [first, byte_toNat fits.1, ih fits.2]

/-- A lane set is read back from its form byte, its count and its lane numbers. -/
theorem readLaneSet_bytes {lanes : Option (List Nat)} (fits : ∀ ks ∈ lanes, ks.length < 256 ∧ ∀ k ∈ ks, k < 256) :
    ∃ form n rest, laneSetBytes lanes = form :: n :: rest ∧ readLaneSet form.toNat n.toNat rest = some lanes := by
  cases lanes with
  | none => exact ⟨_, _, [], rfl, rfl⟩
  | some ks =>
    obtain ⟨count, numbers⟩ := fits ks rfl
    have listed := map_toNat_flatMap_leBytes numbers
    have length : (ks.flatMap (leBytes 1)).length = ks.length := by
      rw [← List.length_map (f := fun b : Byte => b.toNat), listed]
    refine ⟨BitVec.ofNat 8 1, BitVec.ofNat 8 ks.length, ks.flatMap (leBytes 1), rfl, ?_⟩
    unfold readLaneSet
    rw [byte_toNat count, if_neg (not_not_intro length)]
    exact congrArg (fun ks => some (some ks)) listed

/-- A WINDOW_OPEN record is read back from its field bytes (11.3). -/
theorem readWindow_fields {f : WindowFields} (h : (Request.windowOpen f).fits) : readWindow (Request.windowOpen f).fields = some f := by
  obtain ⟨c0, c1, l0, l1, stride, phase, lanes⟩ := h
  obtain ⟨bools, _, _, _, classes, _⟩ := codes_lt
  obtain ⟨form, n, rest, bytes, set⟩ := readLaneSet_bytes lanes
  have last : (if f.l1.isSome = true then some (leValue (leBytes 4 (f.l1.getD 0))) else none) = f.l1 := by
    cases ends : f.l1 with
    | none => rfl
    | some l =>
      exact congrArg some (leValue_leBytes (l1 l ends))
  have read : readWindow (Request.windowOpen f).fields =
      match boolOfCode (BitVec.ofNat 8 (codeOfBool f.l1.isSome)).toNat, classOfCode (BitVec.ofNat 8 (codeOfClass f.cls)).toNat,
        readLaneSet form.toNat n.toNat rest with
      | some present, some cls, some lanes => some {
          c0 := leValue (leBytes 4 f.c0), c1 := leValue (leBytes 4 f.c1), l0 := leValue (leBytes 4 f.l0)
          l1 := if present then some (leValue (leBytes 4 (f.l1.getD 0))) else none, stride := leValue (leBytes 2 f.stride)
          phase := leValue (leBytes 2 f.phase), cls := cls, lanes := lanes }
      | _, _, _ => none := by
    rw [Request.fields, bytes]
    rfl
  rw [read, byte_toNat (bools _), byte_toNat (classes _), boolOfCode_codeOfBool, classOfCode_codeOfClass, set]
  dsimp only
  rw [last, leValue_leBytes c0, leValue_leBytes c1, leValue_leBytes l0, leValue_leBytes stride, leValue_leBytes phase]

/-- The checks of R115. -/
theorem WindowFields.inRange_iff (f : WindowFields) : f.inRange = true ↔
    f.c0 ≤ 65535 ∧ f.c1 ≤ 65535 ∧ f.c0 ≤ f.c1 ∧ f.l0 ≤ 262143 ∧ (∀ l1, f.l1 = some l1 → l1 ≤ 262143 ∧ f.l0 ≤ l1)
      ∧ 1 ≤ f.stride ∧ f.stride ≤ 255 ∧ f.phase < f.stride
      ∧ ∀ ks, f.lanes = some ks → 1 ≤ ks.length ∧ ks.length ≤ 8 ∧ ks.Nodup ∧ ∀ k ∈ ks, k ≤ 7 := by
  have listed : ∀ ks, lanesValid ks = true ↔ 1 ≤ ks.length ∧ ks.length ≤ 8 ∧ ks.Nodup ∧ ∀ k ∈ ks, k ≤ 7 := fun ks => by
    simp [lanesValid, and_assoc]
  cases lanes : f.lanes <;> cases lines : f.l1 <;> simp [WindowFields.inRange, lanes, lines, listed] <;> tauto

/-! ### The window table in a settled state -/

/-- A settled state stays so with another window table, in which of each next entry the window is FREE as it was before. -/
theorem Settled.withWindows {s : State} (h : Settled s) {windows : List (Nat × Window)}
    (same : ∀ p e, (s.port p).nextEntry = some e → (tableGet windows e.window).isSome = (s.window e.window).isSome) :
    Settled (s.withWindows windows) where
  arbiter := fun p => by
    rw [arbitrate_eq_self]
    intro up idle
    obtain ⟨responses, notice, rest⟩ := h.port_restful p up idle
    refine ⟨responses, notice, fun e next live credit begins => rest e next live credit ?_⟩
    obtain ⟨window, band⟩ := begins
    refine ⟨?_, band⟩
    rw [← Option.isSome_iff_exists] at window ⊢
    exact (same p e next).symm.trans window
  stall := h.stall

/-- A request taken in a settled state whose action replaces the window table by one that leaves the state settled. -/
theorem takeRequest_withWindows {s : State} {p : Port} {f : RequestFrame} {rest : List RequestFrame} {k : Option RequestKind}
    {act : RequestFrame → State → State × Answer} {a : Answer} {windows : List (Nat × Window)} (h : Settled (s.withWindows windows))
    (taken : Taken s p f rest) (kind : f.requestKind = k)
    (does : act f (requestLeft p rest s) = ((requestLeft p rest s).withWindows windows, a)) :
    takeRequest p k act s = .next (answered p rest (a.response f) (s.withWindows windows)) := by
  rw [takeRequest_taken taken kind does, settle_respond (s := s.withWindows windows)
    (t := (requestLeft p rest s).withWindows windows) h taken.isUp rfl rfl (State.port_setPort_self s p _) fun q ne =>
    State.port_setPort_ne s _ ne]
  exact congrArg Host.Outcome.next (State.setPort_setPort (s.withWindows windows) p _ _)

/-- Without a FREE record WINDOW_OPEN finds none (R116). -/
theorem freeWindow_none {s : State} (full : ∀ id, id < 64 → (s.window id).isSome = true) : s.freeWindow = none :=
  List.find?_eq_none.mpr fun id mem free => by
    have taken := full id (List.mem_range.mp mem)
    rw [Option.isNone_iff_eq_none] at free
    rw [free] at taken
    cases taken

theorem freeWindow_eq {s : State} {id : Nat} (bound : id < 64) (free : s.window id = none)
    (least : ∀ j, j < id → (s.window j).isSome = true) : s.freeWindow = some id :=
  List.find?_range_eq_some.mpr ⟨Option.isNone_iff_eq_none.mpr free, List.mem_range.mpr bound, fun j below => by
    rw [Bool.not_eq_true', Option.isNone_eq_false_iff]
    exact least j below⟩

theorem laneSetOf_get (ks : List Nat) (k : Lane) : (laneSetOf ks).get k = decide (laneNumber k ∈ ks) := PerLane.get_map _ _ k

/-- Settles O48: an opening concerns a FREE record, which no queued entry names, so the state stays settled. -/
theorem windowOpenTaken : Obligations.WindowOpenTaken := by
  unfold Obligations.WindowOpenTaken
  intro s p tag rest f settled ok taken fits
  extract_lets answer good
  set frame := (Request.windowOpen f).frame tag
  set t := requestLeft p rest s
  have kind : frame.requestKind = some .windowOpen := Request.frame_kind _ tag
  have refused : ∀ c, ifLive p (withFields readWindow (windowOpen p)) frame t = (t, { code := c }) →
      exec (.windowOpen p) s = .next (answer { code := c } s) := fun c does => takeRequest_answered settled taken kind does
  have state : (t.port p).state = (s.port p).state := by rw [show t.port p = _ from State.port_setPort_self _ _ _]
  have read : (s.port p).state = .live → ifLive p (withFields readWindow (windowOpen p)) frame t = windowOpen p f t := fun live => by
    rw [ifLive, if_pos (by rw [ConsumerPort.isLive, state, live]; rfl), withFields_read (readWindow_fields fits)]
  have checked : f.inRange = true ↔ good := f.inRange_iff
  refine ⟨fun other => refused _ ?_, fun live bad => refused _ ?_, fun live fine full => refused _ ?_, ?_⟩
  · rw [ifLive, if_neg fun live => other ?_]
    · rfl
    · rw [← state]
      exact beq_iff_eq.mp live
  · rw [read live, windowOpen, if_neg (bad ∘ checked.mp)]
    rfl
  · have none : t.freeWindow = none := freeWindow_none full
    rw [read live, windowOpen, if_pos (checked.mpr fine), none]
    rfl
  · intro id live fine bound free least
    have lowest : t.freeWindow = some id := freeWindow_eq bound free least
    have settled' : Settled (s.withWindows (tablePut s.windows id (f.opened p))) := settled.withWindows fun q e next => by
      obtain ⟨cls, mem⟩ := nextEntry_queued next
      obtain ⟨_, w, now, _⟩ := ok.queued q cls e mem
      rw [tableGet_put, if_neg fun own => by rw [own, free] at now; cases now]
      rfl
    refine ⟨f.opened p, takeRequest_withWindows settled' taken kind ?_, rfl, rfl, rfl, rfl, rfl, rfl, rfl, rfl, rfl, rfl, rfl, rfl, rfl, rfl,
      rfl, fun lanes => ?_, fun ks lanes => ⟨laneSetOf ks, ?_, laneSetOf_get ks⟩⟩
    · rw [read live, windowOpen, if_pos (checked.mpr fine), lowest]
      rfl
    all_goals
      show f.lanes.map laneSetOf = _
      rw [lanes]
      rfl

end Sys2Proof.Machine
end

section
/-!
SUPPORT. The releases of a closure (R107, R108): the slots that join the free list, the end of pressure, and the holder counts against the
entries that remain.
-/

namespace Sys2Proof.Machine

/-! ### Slots freed and pressure left (R107, R108) -/

theorem OnlyRaises.isLive {s t : State} (h : OnlyRaises s t) (p : Port) : (t.port p).isLive = (s.port p).isLive := by
  obtain ⟨_, _, port⟩ := h.kept p
  rw [port]
  rfl

/-- PRESSURE after a judgment: raised at every LIVE port exactly where the pressure state changed. -/
theorem judgePressure_raised (s : State) (q : Port) : NoticeSet.has ((judgePressure s).port q).pendingSet .pressure
    = (NoticeSet.has (s.port q).pendingSet .pressure
      || ((s.port q).isLive && decide (pressureAfter s.bsc.pressure s.bsc.reserve s.bsc.free.length ≠ s.bsc.pressure))) := by
  rw [judgePressure_spec]
  dsimp only
  split
  next same => simp [same]
  next changed =>
    rw [raiseLive, raiseWhere_pendingSet]
    show NoticeSet.has (if (s.port q).isLive = true then NoticeSet.add (s.port q).pendingSet .pressure else (s.port q).pendingSet) _ = _
    split
    next live => simp [NoticeSet.has_add, live, changed]
    next not => simp [not]

/-- Slots may have joined the free list, with the judgments of pressure that follow. -/
structure SlotsFreed (s t : State) : Prop where
  filling : t.bsc.filling = s.bsc.filling
  sealSequence : t.bsc.sealSequence = s.bsc.sealSequence
  reserve : t.bsc.reserve = s.bsc.reserve
  free : s.bsc.free <+: t.bsc.free
  live : ∀ q, (t.port q).isLive = (s.port q).isLive
  pressure : PressureOk s → PressureReleased (fun _ => True) s t

namespace SlotsFreed

variable {s t u : State}

theorem pressureOk (h : SlotsFreed s t) (ok : PressureOk s) : PressureOk t := by
  have released := (h.pressure ok).pressure
  have more := h.free.length_le
  constructor
  · intro entered
    rw [entered, eq_comm, Bool.and_eq_true, decide_eq_true_eq] at released
    rw [h.reserve]
    exact released.2
  · intro left
    rw [left, eq_comm, Bool.and_eq_false_iff, decide_eq_false_iff_not] at released
    rw [h.reserve]
    rcases released with never | beyond
    · exact (ok.left never).trans_le more
    · omega

/-- Nothing joined the free list, and the pending sets are as they were. -/
theorem of_same (filling : t.bsc.filling = s.bsc.filling) (sealSequence : t.bsc.sealSequence = s.bsc.sealSequence)
    (reserve : t.bsc.reserve = s.bsc.reserve) (free : t.bsc.free = s.bsc.free) (pressure : t.bsc.pressure = s.bsc.pressure)
    (live : ∀ q, (t.port q).isLive = (s.port q).isLive) (pending : ∀ q, (t.port q).pendingSet = (s.port q).pendingSet) :
    SlotsFreed s t where
  filling := filling
  sealSequence := sealSequence
  reserve := reserve
  free := by rw [free]
  live := live
  pressure := fun ok => by
    constructor
    · rw [pressure, free]
      cases now : s.bsc.pressure with
      | false => rfl
      | true => exact (decide_eq_true (ok.entered now)).symm
    · intro q _
      simp [pending, pressure]

/-- A state that only falls has changed over two spans where it has changed over one of them. -/
theorem changed_iff : ∀ a b c : Bool, (b = true → a = true) → (c = true → b = true) → (b ≠ a ∨ c ≠ b ↔ c ≠ a) := by decide

theorem refl (s : State) : SlotsFreed s s := of_same rfl rfl rfl rfl rfl (fun _ => rfl) fun _ => rfl

/-- Pressure that has been left is not entered again while slots are freed (R108). -/
theorem trans (h : SlotsFreed s t) (g : SlotsFreed t u) : SlotsFreed s u where
  filling := g.filling.trans h.filling
  sealSequence := g.sealSequence.trans h.sealSequence
  reserve := g.reserve.trans h.reserve
  free := h.free.trans g.free
  live := fun q => (g.live q).trans (h.live q)
  pressure := fun ok => by
    obtain ⟨first, raised⟩ := h.pressure ok
    obtain ⟨second, raised'⟩ := g.pressure (h.pressureOk ok)
    have more := g.free.length_le
    constructor
    · rw [second, first, h.reserve, Bool.and_assoc]
      congr 1
      rw [← Bool.decide_and]
      exact decide_eq_decide.mpr ⟨And.right, fun still => ⟨more.trans still, still⟩⟩
    · intro q _
      have falls : t.bsc.pressure = true → s.bsc.pressure = true := fun now => by
        rw [now, eq_comm, Bool.and_eq_true] at first
        exact first.1
      have falls' : u.bsc.pressure = true → t.bsc.pressure = true := fun now => by
        rw [now, eq_comm, Bool.and_eq_true] at second
        exact second.1
      rw [raised' q trivial, raised q trivial, ← g.live q, Bool.or_assoc, ← Bool.and_or_distrib_left, ← Bool.decide_or]
      congr 2
      exact decide_eq_decide.mpr (changed_iff _ _ _ falls falls')

theorem foldl {α : Type} {f : State → α → State} (h : ∀ s x, SlotsFreed s (f s x)) (l : List α) : ∀ s, SlotsFreed s (l.foldl f s) := by
  induction l with
  | nil => exact refl
  | cons x l ih => exact fun s => (h s x).trans (ih _)

end SlotsFreed

theorem freeSlot_freed (slot : Nat) (s : State) : SlotsFreed s (freeSlot slot s) where
  filling := by rw [freeSlot_bsc]
  sealSequence := by rw [freeSlot_bsc]
  reserve := by rw [freeSlot_bsc]
  free := by rw [freeSlot_bsc]; exact List.prefix_append _ _
  live := (freeSlot_raises slot s).isLive
  pressure := fun ok => by
    have judged : (freeSlot slot s).bsc.pressure = pressureAfter s.bsc.pressure s.bsc.reserve (s.bsc.free ++ [slot]).length := by
      rw [freeSlot_bsc]
    constructor
    · rw [judged, freeSlot_bsc, pressureAfter]
      cases now : s.bsc.pressure with
      | true => rfl
      | false =>
        have left := ok.left now
        rw [List.length_append]
        exact decide_eq_false (by omega)
    · intro q _
      rw [(freeSlot_raises slot s).isLive, judged]
      exact judgePressure_raised _ q

/-- What a release of an entry can do: nothing, the slot freed, or its holder count lowered (R107). -/
theorem releaseSlot_cases (slot : Nat) (s : State) :
    releaseSlot slot s = s ∨ releaseSlot slot s = freeSlot slot s ∨ ∃ b, releaseSlot slot s = putBand slot b s := by
  unfold releaseSlot
  split
  · exact .inl rfl
  · split
    · exact .inl rfl
    · split
      · exact .inr (.inl rfl)
      · exact .inr (.inr ⟨_, rfl⟩)

theorem releaseSlot_freed (slot : Nat) (s : State) : SlotsFreed s (releaseSlot slot s) := by
  rcases releaseSlot_cases slot s with same | freed | ⟨b, lowered⟩
  · rw [same]; exact .refl s
  · rw [freed]; exact freeSlot_freed slot s
  · rw [lowered]; exact .of_same rfl rfl rfl rfl rfl (fun _ => rfl) fun _ => rfl

theorem releaseEntries_freed (es : List Entry) (s : State) : SlotsFreed s (releaseEntries es s) :=
  .foldl (f := fun s (e : Entry) => releaseSlot e.slot s) (fun s e => releaseSlot_freed e.slot s) es s

theorem releaseSlot_band_ne {slot other : Nat} (ne : other ≠ slot) (s : State) : (releaseSlot slot s).band other = s.band other := by
  rcases releaseSlot_cases slot s with same | freed | ⟨b, lowered⟩
  · rw [same]
  · rw [freed, freeSlot_band, if_neg ne]
  · rw [lowered]
    exact (tableGet_put s.bsc.bands slot other b).trans (if_neg ne)

/-! ### Holder counts (R107) -/

/-- A HELD slot's band with a number of holders: the slot is FREE without any. -/
def State.HeldBy (s : State) (slot : Nat) (b : Band) (r : SealRecord) (n : Nat) : Prop :=
  if n = 0 then s.band slot = none ∧ slot ∈ s.bsc.free else s.band slot = some { b with sealing := some { r with holders := n } }

theorem State.HeldBy.congr {s t : State} {slot : Nat} {b : Band} {r : SealRecord} {n : Nat} (h : s.HeldBy slot b r n)
    (band : t.band slot = s.band slot) (free : s.bsc.free <+: t.bsc.free) : t.HeldBy slot b r n := by
  unfold State.HeldBy at h ⊢
  rw [band]
  split at h
  next zero => rw [if_pos zero]; exact ⟨h.1, free.subset h.2⟩
  next some => rw [if_neg some]; exact h

/-- The release of an entry takes one holder from its slot, and none from another. -/
theorem State.HeldBy.released {s : State} {slot : Nat} {b : Band} {r : SealRecord} {n : Nat} (h : s.HeldBy slot b r n) (other : Nat) :
    (releaseSlot other s).HeldBy slot b r (if other = slot then n - 1 else n) := by
  by_cases own : other = slot
  · subst own
    rw [if_pos rfl]
    rcases n with _ | _ | n
    · obtain ⟨band, free⟩ := h
      rw [(releaseSlot_spec other s).2.2 fun b r some => by rw [band] at some; cases some]
      exact ⟨band, free⟩
    · rw [(releaseSlot_spec other s).1 _ _ h rfl (Nat.le_refl 1)]
      refine ⟨by rw [freeSlot_band, if_pos rfl], ?_⟩
      rw [freeSlot_bsc]
      exact List.mem_append_right _ List.mem_cons_self
    · rw [(releaseSlot_spec other s).2.1 _ _ h rfl (by show 2 ≤ n + 1 + 1; omega)]
      exact (tableGet_put s.bsc.bands other other _).trans (if_pos rfl)
  · rw [if_neg own]
    exact h.congr (releaseSlot_band_ne (Ne.symm own) s) (releaseSlot_freed other s).free

theorem State.HeldBy.releasedAll {slot : Nat} {b : Band} {r : SealRecord} (es : List Entry) : ∀ {s : State} {n : Nat}, s.HeldBy slot b r n →
    (releaseEntries es s).HeldBy slot b r (n - es.countP fun e => decide (e.slot = slot)) := by
  induction es with
  | nil => exact fun h => h
  | cons e es ih =>
    intro s n h
    have rest := ih (h.released e.slot)
    have count : n - (e :: es).countP (fun e => decide (e.slot = slot))
        = (if e.slot = slot then n - 1 else n) - es.countP fun e => decide (e.slot = slot) := by
      by_cases own : e.slot = slot
      · rw [List.countP_cons_of_pos (by exact decide_eq_true own), if_pos own]
        omega
      · rw [List.countP_cons_of_neg (by simpa using own), if_neg own]
    rw [count]
    exact rest

/-! ### The entries that name a slot -/

theorem State.naming_eq (s : State) (slot : Nat) : s.naming slot
    = (allPorts.map fun p => (s.port p).entries.countP fun e => decide (e.slot = slot)).sum := List.countP_flatMap ..

theorem State.naming_congr {s t : State} (same : ∀ p, (t.port p).entries = (s.port p).entries) (slot : Nat) :
    t.naming slot = s.naming slot := by
  simp only [State.naming, same]

/-- A port replaced: its own entries count anew. -/
theorem State.naming_setPort (s : State) (p : Port) (c : ConsumerPort) (slot : Nat) :
    (s.setPort p c).naming slot + (s.port p).entries.countP (fun e => decide (e.slot = slot))
      = s.naming slot + c.entries.countP fun e => decide (e.slot = slot) := by
  rw [State.naming_eq, State.naming_eq]
  cases p <;> simp [allPorts, State.port_setPort] <;> omega

end Sys2Proof.Machine
end

section
/-!
SUPPORT. The end of an event at which no port has a strip to begin, the delivery of a response, and what a closure does to the ports and
to the holders of a slot.
-/

namespace Sys2Proof.Machine

/-! ### The end of an event without a strip to begin (R135, R137) -/

/-- No port whose link is idle may send a strip. -/
def State.NoStripDue (s : State) : Prop :=
  ∀ p, (s.port p).outbound = none → (s.port p).state = .live → 1 ≤ (s.port p).credit → (s.port p).nextEntry = none

/-- A port holds the entries it held, each where it was, and its credit. -/
structure ConsumerPort.SameWork (c d : ConsumerPort) : Prop where
  queue : ∀ cls, d.queue cls = c.queue cls
  entries : d.entries = c.entries
  credit : d.credit = c.credit

/-- No strip was begun, and none can be begun now. -/
structure NoStripBegun (s t : State) : Prop where
  windows : t.windows = s.windows
  work : ∀ p, (s.port p).SameWork (t.port p)
  due : t.NoStripDue

theorem ConsumerPort.SameWork.refl (c : ConsumerPort) : c.SameWork c := ⟨fun _ => rfl, rfl, rfl⟩

theorem ConsumerPort.SameWork.trans {c d e : ConsumerPort} (h : c.SameWork d) (g : d.SameWork e) : c.SameWork e :=
  ⟨fun cls => (g.queue cls).trans (h.queue cls), g.entries.trans h.entries, g.credit.trans h.credit⟩

/-- A response or notice frame begun on an idle link. -/
theorem NoStripBegun.setPort {s : State} {p : Port} {c : ConsumerPort} (due : s.NoStripDue) (work : (s.port p).SameWork c)
    (busy : c.outbound ≠ none) : NoStripBegun s (s.setPort p c) where
  windows := rfl
  work := fun q => by
    rw [State.port_setPort]
    split
    next own => rw [own]; exact work
    · exact .refl _
  due := fun q idle => by
    rw [State.port_setPort] at idle ⊢
    split at idle
    · exact absurd idle busy
    next other => rw [if_neg other]; exact due q idle

theorem arbitrate_noStripBegun {s : State} (due : s.NoStripDue) (p : Port) : NoStripBegun s (arbitrate s p) := by
  have same : NoStripBegun s s := ⟨rfl, fun _ => .refl _, due⟩
  have begins : ∀ c : ConsumerPort, (s.port p).outbound = none → c.essential = (s.port p).essential →
      c.sheddable = (s.port p).sheddable → c.credit = (s.port p).credit → c.outbound ≠ none → c.stripWindow = none →
      NoStripBegun s (s.setPort p c) := fun c idle essential sheddable credit busy strip => by
    refine .setPort due ⟨fun cls => by cases cls <;> assumption, ?_, credit⟩ busy
    unfold ConsumerPort.stripWindow at strip
    unfold ConsumerPort.entries
    rw [essential, sheddable, idle]
    split
    next sent => rw [sent] at strip; cases strip
    all_goals rfl
  unfold arbitrate
  dsimp only
  split
  · exact same
  · exact same
  next idle _ =>
    split
    · exact begins _ idle rfl rfl rfl nofun rfl
    · exact begins _ idle rfl rfl rfl nofun rfl
    · split
      · exact same
      next e next =>
        split
        next able =>
          rw [due p idle able.1 able.2] at next
          cases next
        · exact same

/-- Where no strip is due, the end of an event leaves the windows, and every port its entries and its credit. -/
theorem settle_noStripBegun {s : State} (due : s.NoStripDue) :
    (settle s).windows = s.windows ∧ ∀ p, (s.port p).SameWork ((settle s).port p) := by
  have fold : ∀ (ps : List Port) {s : State}, s.NoStripDue → NoStripBegun s (ps.foldl arbitrate s) := by
    intro ps
    induction ps with
    | nil => exact fun due => ⟨rfl, fun _ => .refl _, due⟩
    | cons p ps ih =>
      intro s due
      have first := arbitrate_noStripBegun due p
      have rest := ih first.due
      exact ⟨rest.windows.trans first.windows, fun q => (first.work q).trans (rest.work q), rest.due⟩
  obtain ⟨windows, work, _⟩ := fold allPorts due
  refine ⟨windows, fun p => (work p).trans ?_⟩
  rw [settle_port]
  obtain ⟨_, port⟩ := judgeStall_kept (allPorts.foldl arbitrate s) ((allPorts.foldl arbitrate s).port p)
  rw [port]
  exact ⟨fun cls => by cases cls <;> rfl, rfl, rfl⟩

/-- A request in a settled state whose action leaves the link of the port that takes it as it is: the response is begun on an idle link and
waits as the last on a busy one (R135, R165). -/
theorem delivered_of_link {s t : State} {p : Port} {f : RequestFrame} {rest : List RequestFrame} {a : Answer} (h : Settled s)
    (up : (s.port p).isUp = true) (up' : (t.port p).isUp = true) (requests : (t.port p).requests = rest)
    (link : (t.port p).outbound = (s.port p).outbound) (responses : (t.port p).responses = (s.port p).responses) :
    Delivered s (settle (respond p f a t)) p rest (a.response f) := by
  set u := respond p f a t
  have port : u.port p = { t.port p with responses := (s.port p).responses ++ [a.response f] } := by
    rw [show u.port p = _ from State.port_setPort_self _ _ _, responses]
  have sends : (u.port p).outbound = (s.port p).outbound := by rw [port]; exact link
  unfold Delivered
  cases outbound : (s.port p).outbound with
  | some g =>
    obtain ⟨stall, kept⟩ := settle_port_own (s := u) (p := p) (c := u.port p) fun v same => by
      rw [arbitrate_busy (by rw [same, sends, outbound]; rfl), same]
    rw [kept, port]
    exact ⟨requests, link.trans outbound, rfl⟩
  | none =>
    have none_waits : (s.port p).responses = [] :=
      (h.port_restful p (fun down => by simp [ConsumerPort.isUp, down] at up) outbound).1
    obtain ⟨stall, kept⟩ := settle_port_own (s := u) (p := p)
      (c := { u.port p with responses := [], outbound := some (.response (a.response f)) }) fun v same => by
        rw [arbitrate_responds (r := a.response f) (rest := []) (by rw [same, port]; exact up') (by rw [same, sends, outbound])
          (by rw [same, port, none_waits]; rfl), State.port_setPort_self, same]
    rw [kept, port]
    exact ⟨requests, rfl⟩

/-! ### Entries wait in a settled state only where no strip may be sent (R135) -/

theorem naming_pos {s : State} {p : Port} {cls : DeliveryClass} {e : Entry} (mem : e ∈ (s.port p).queue cls) : 0 < s.naming e.slot := by
  refine List.countP_pos_iff.mpr ⟨e, List.mem_flatMap.mpr ⟨p, mem_allPorts p, ?_⟩, decide_eq_true rfl⟩
  cases cls
  · exact List.mem_append_left _ (List.mem_append_left _ mem)
  · exact List.mem_append_left _ (List.mem_append_right _ mem)

/-- A queued entry names a HELD band (R107) and a window that is not FREE (R118). -/
theorem beginnable_of_queued {s : State} (holders : HoldersOk s) (ok : WindowsOk s) {p : Port} {cls : DeliveryClass} {e : Entry}
    (mem : e ∈ (s.port p).queue cls) : beginnable s.windows s.bsc.bands e := by
  have named := naming_pos mem
  obtain ⟨_, w, now, _⟩ := ok.queued p cls e mem
  refine ⟨⟨w, now⟩, ?_⟩
  cases band : s.band e.slot with
  | none => rw [holders.free _ band] at named; cases named
  | some b =>
    cases held : b.sealing with
    | none => rw [holders.filling _ b band held] at named; cases named
    | some r => exact ⟨b, r, band, held⟩

theorem Settled.queue_nil {s : State} (h : Settled s) (holders : HoldersOk s) (ok : WindowsOk s) {p : Port}
    (idle : (s.port p).outbound = none) (live : (s.port p).state = .live) (credit : 1 ≤ (s.port p).credit) (cls : DeliveryClass) :
    (s.port p).queue cls = [] := by
  have none : (s.port p).nextEntry = none := by
    by_contra some
    obtain ⟨e, next⟩ := Option.ne_none_iff_exists'.mp some
    obtain ⟨_, mem⟩ := nextEntry_queued next
    obtain ⟨_, _, rest⟩ := h.port_restful p (by rw [live]; exact nofun) idle
    exact rest e next live credit (beginnable_of_queued holders ok mem)
  unfold ConsumerPort.nextEntry at none
  split at none
  · cases none
  next essential =>
    cases cls with
    | essential => exact essential
    | sheddable => exact List.head?_eq_none_iff.mp none

/-! ### A closure (R118) -/

theorem without_outbound (c : ConsumerPort) (id : Nat) (cls : DeliveryClass) : (c.without id cls).outbound = c.outbound := by
  cases cls <;> rfl

/-- The entries of a port are those that a withdrawal leaves and those it takes. -/
theorem without_count (c : ConsumerPort) (id : Nat) (cls : DeliveryClass) (P : Entry → Bool) : c.entries.countP P
    = (c.without id cls).entries.countP P + ((c.queue cls).filter fun e => decide (e.window = id)).countP P := by
  have parts : ∀ q : List Entry, q.countP P
      = (q.filter fun e => decide (e.window = id)).countP P + (q.filter fun e => decide (e.window ≠ id)).countP P := fun q => by
    simpa using List.countP_eq_countP_filter_add q P fun e => decide (e.window = id)
  cases cls
  all_goals
    simp only [ConsumerPort.entries, ConsumerPort.without, ConsumerPort.setQueue, ConsumerPort.queue, List.countP_append]
  · rw [parts c.essential]; omega
  · rw [parts c.sheddable]; omega

theorem without_stripWindow (c : ConsumerPort) (id : Nat) (cls : DeliveryClass) : (c.without id cls).stripWindow = c.stripWindow :=
  setQueue_stripWindow _ _ _

theorem SlotsFreed.setPort (s : State) {p : Port} {c : ConsumerPort} (live : c.isLive = (s.port p).isLive)
    (pending : c.pendingSet = (s.port p).pendingSet) : SlotsFreed s (s.setPort p c) := by
  refine .of_same rfl rfl rfl rfl rfl (fun q => ?_) fun q => ?_
  all_goals
    rw [State.port_setPort]
    split
    next own => rw [own]; assumption
    · rfl

theorem withdraw_freed (id : Nat) (cls : DeliveryClass) (s : State) (p : Port) : SlotsFreed s (withdraw id cls s p) := by
  have left : SlotsFreed s (s.setPort p ((s.port p).without id cls)) := .setPort s (by cases cls <;> rfl) (by cases cls <;> rfl)
  exact left.trans (releaseEntries_freed _ _)

theorem withdrawAll_freed (id : Nat) (cls : DeliveryClass) (s : State) : SlotsFreed s (withdrawAll id cls s) :=
  .foldl (f := withdraw id cls) (withdraw_freed id cls) allPorts s

/-- A withdrawal takes one holder from a slot for each entry that it takes (R107). -/
theorem withdraw_heldBy {s : State} {slot : Nat} {b : Band} {r : SealRecord} (h : s.HeldBy slot b r (s.naming slot)) (id : Nat)
    (cls : DeliveryClass) (p : Port) : (withdraw id cls s p).HeldBy slot b r ((withdraw id cls s p).naming slot) := by
  set left := s.setPort p ((s.port p).without id cls) with hleft
  set gone := ((s.port p).queue cls).filter fun e => decide (e.window = id)
  have held : left.HeldBy slot b r (s.naming slot) := h.congr rfl (List.prefix_refl _)
  have released : (releaseEntries gone left).naming slot = left.naming slot := State.naming_congr (fun q => by
    obtain ⟨_, _, port⟩ := (releaseEntries_raises gone left).kept q
    rw [port]
    rfl) slot
  have moved := State.naming_setPort s p ((s.port p).without id cls) slot
  have parts : (s.port p).entries.countP _ = ((s.port p).without id cls).entries.countP _ + gone.countP _ :=
    without_count (s.port p) id cls fun e => decide (e.slot = slot)
  rw [← hleft] at moved
  have count : (releaseEntries gone left).naming slot = s.naming slot - gone.countP fun e => decide (e.slot = slot) := by omega
  show (releaseEntries gone left).HeldBy slot b r ((releaseEntries gone left).naming slot)
  rw [count]
  exact held.releasedAll gone

theorem withdrawAll_heldBy {s : State} {slot : Nat} {b : Band} {r : SealRecord} (h : s.HeldBy slot b r (s.naming slot)) (id : Nat)
    (cls : DeliveryClass) : (withdrawAll id cls s).HeldBy slot b r ((withdrawAll id cls s).naming slot) := by
  have fold : ∀ (ps : List Port) {s : State}, s.HeldBy slot b r (s.naming slot) →
      (ps.foldl (withdraw id cls) s).HeldBy slot b r ((ps.foldl (withdraw id cls) s).naming slot) := by
    intro ps
    induction ps with
    | nil => exact fun h => h
    | cons p ps ih => exact fun h => ih (withdraw_heldBy h id cls p)
  exact fold allPorts h

theorem retireWindow_agree (id : Nat) (w : Window) (s : State) : State.Agree [.windows] s (retireWindow id w s) := by
  unfold retireWindow
  split
  · exact eraseWindow_agree id s (by decide)
  · exact putWindow_agree id _ s (by decide)

end Sys2Proof.Machine
end

section
/-!
SUPPORT AND PROOF. WINDOW_CLOSE (R117, R118) and WINDOW_RETURN (R121).
-/

namespace Sys2Proof.Machine

/-! ### The window a port may act on (R117, R121) -/

theorem entitledWindow_range {p : Port} {id : Nat} (s : State) (beyond : 63 < id) : entitledWindow p id s = .error .range :=
  if_neg (Nat.not_lt.mpr beyond)

theorem entitledWindow_unknown {p : Port} {id : Nat} {s : State} (bound : id ≤ 63)
    (other : ∀ w, s.window id = some w → w.closing.isSome = true ∨ w.owner ≠ p ∧ w.origin ≠ p) : entitledWindow p id s = .error .unknown := by
  unfold entitledWindow
  rw [if_pos (show id < Config.windowCount from Nat.lt_succ_of_le bound)]
  split
  · rfl
  next w now =>
    refine if_neg fun able => ?_
    rcases other w now with closing | ⟨owner, origin⟩
    · rw [able.1] at closing
      cases closing
    · exact able.2.elim owner origin

theorem entitledWindow_able {p : Port} {id : Nat} {s : State} {w : Window} (bound : id ≤ 63) (now : s.window id = some w)
    (opened : w.closing = none) (party : w.owner = p ∨ w.origin = p) : entitledWindow p id s = .ok w := by
  unfold entitledWindow
  rw [if_pos (show id < Config.windowCount from Nat.lt_succ_of_le bound), now]
  exact if_pos ⟨opened, party⟩

theorem windowClose_refused {p : Port} {id : Nat} {s : State} {c : ResponseCode} (refused : entitledWindow p id s = .error c) :
    windowClose p id s = (s, { code := c }) := by
  rw [windowClose, refused]
  rfl

theorem windowReturn_refused {p : Port} {id : Nat} {s : State} {c : ResponseCode} (refused : entitledWindow p id s = .error c) :
    windowReturn p id s = (s, { code := c }) := by
  rw [windowReturn, refused]
  rfl

/-! ### WINDOW_RETURN -/

theorem windowReturn_able {p : Port} {id : Nat} {s : State} {w : Window} (able : entitledWindow p id s = .ok w) :
    windowReturn p id s = if w.adopted = true ∧ (s.port w.origin).isLive = true then (putWindow id w.returned s, { code := .done })
      else (s, { code := .state }) := by
  rw [windowReturn, able]
  rfl

/-- A window given back leaves a settled state settled: the ids in use are the same. -/
theorem Settled.putWindow {s : State} (h : Settled s) {id : Nat} {w : Window} (now : s.window id = some w) (v : Window) :
    Settled (s.withWindows (tablePut s.windows id v)) := h.withWindows fun p e _ => by
  rw [tableGet_put]
  split
  next own => rw [own, now]; rfl
  · rfl

/-- The answers to WINDOW_RETURN. -/
theorem windowReturn_taken {s : State} {p : Port} {tag : Byte} {rest : List RequestFrame} {id : Nat} (settled : Settled s) (fits : id < 256)
    (taken : Taken s p ((Request.windowReturn id).frame tag) rest) :
    (∀ c, entitledWindow p id s = .error c →
      exec (.windowReturn p) s = .next (answered p rest (responseTo (.windowReturn id) tag { code := c }) s))
    ∧ ∀ w, s.window id = some w → entitledWindow p id s = .ok w → exec (.windowReturn p) s = .next (
        if w.adopted = true ∧ (s.port w.origin).state = .live then
          answered p rest (responseTo (.windowReturn id) tag { code := .done }) (s.withWindows (tablePut s.windows id w.returned))
        else answered p rest (responseTo (.windowReturn id) tag { code := .state }) s) := by
  set frame := (Request.windowReturn id).frame tag
  set t := requestLeft p rest s with left
  have kind : frame.requestKind = some .windowReturn := Request.frame_kind _ tag
  have read : withFields readByte (windowReturn p) frame t = windowReturn p id t := withFields_read (readByte_leBytes fits) t
  have live : ∀ q, (t.port q).isLive = true ↔ (s.port q).state = .live := fun q => by
    rw [ConsumerPort.isLive, beq_iff_eq, left, requestLeft, State.port_setPort]
    split
    next own => rw [own]
    · rfl
  refine ⟨fun c refused => takeRequest_answered settled taken kind (read.trans (windowReturn_refused refused)), fun w now able => ?_⟩
  have acts := read.trans (windowReturn_able (s := t) able)
  split
  next both =>
    rw [if_pos ⟨both.1, (live _).mpr both.2⟩] at acts
    exact takeRequest_withWindows (settled.putWindow now w.returned) taken kind acts
  next neither =>
    rw [if_neg fun both => neither ⟨both.1, (live _).mp both.2⟩] at acts
    exact takeRequest_answered settled taken kind acts

/-! ### WINDOW_CLOSE -/

/-- The state of a closure before the end of the event: the request left, the entries withdrawn, the window retired, the answer made. -/
def closedState (p : Port) (rest : List RequestFrame) (f : RequestFrame) (id : Nat) (w : Window) (s : State) : State :=
  respond p f { code := .done } (retireWindow id w (withdrawAll id w.cls (requestLeft p rest s)))

/-- A port of that state is the port before, without the window's entries, but for requests, answers and notices. -/
theorem closedState_port (s : State) (p : Port) (rest : List RequestFrame) (f : RequestFrame) (id : Nat) (w : Window) (q : Port) :
    ∃ requests responses pending notice, (closedState p rest f id w s).port q = { (s.port q).without id w.cls with
      requests := requests, responses := responses, pendingSet := pending, notice := notice } := by
  obtain ⟨pending, notice, port⟩ := withdrawAll_port id w.cls (requestLeft p rest s) q
  have ports : ∀ q, (retireWindow id w (withdrawAll id w.cls (requestLeft p rest s))).port q
      = (withdrawAll id w.cls (requestLeft p rest s)).port q := fun q =>
    congrArg (PerPort.get · q) ((retireWindow_agree id w _).ports (by decide))
  rw [closedState, respond, State.port_setPort]
  split
  next own =>
    subst own
    rw [ports, port, requestLeft, State.port_setPort_self]
    cases w.cls <;> exact ⟨_, _, _, _, rfl⟩
  next other =>
    rw [ports, port, requestLeft, State.port_setPort_ne _ _ other]
    cases w.cls <;> exact ⟨_, _, _, _, rfl⟩

/-- The slots freed by the closure, and the pressure that it ends. -/
theorem closedState_freed (s : State) (p : Port) (rest : List RequestFrame) (f : RequestFrame) (id : Nat) (w : Window) :
    SlotsFreed s (settle (closedState p rest f id w s)) := by
  have agree := retireWindow_agree id w (withdrawAll id w.cls (requestLeft p rest s))
  have bsc := agree.bsc (by decide)
  have port : ∀ q, (retireWindow id w (withdrawAll id w.cls (requestLeft p rest s))).port q
      = (withdrawAll id w.cls (requestLeft p rest s)).port q := fun q => congrArg (PerPort.get · q) (agree.ports (by decide))
  have retired : SlotsFreed (withdrawAll id w.cls (requestLeft p rest s)) (retireWindow id w (withdrawAll id w.cls (requestLeft p rest s))) :=
    .of_same (by rw [bsc]) (by rw [bsc]) (by rw [bsc]) (by rw [bsc]) (by rw [bsc]) (fun q => by rw [port]) fun q => by rw [port]
  have ended : SlotsFreed (closedState p rest f id w s) (settle (closedState p rest f id w s)) :=
    .of_same (by rw [settle_bsc]) (by rw [settle_bsc]) (by rw [settle_bsc]) (by rw [settle_bsc]) (by rw [settle_bsc])
      (fun q => by rw [ConsumerPort.isLive, settle_state]; rfl) fun q => settle_pendingSet _ q
  have left : SlotsFreed s (requestLeft p rest s) := .setPort s rfl rfl
  have responds : SlotsFreed (retireWindow id w (withdrawAll id w.cls (requestLeft p rest s))) (closedState p rest f id w s) :=
    .setPort _ rfl rfl
  exact (((left.trans (withdrawAll_freed id w.cls _)).trans retired).trans responds).trans ended

section Closed

variable {s : State} {p : Port} {rest : List RequestFrame} {f : RequestFrame} {id : Nat} {w : Window}

/-- In a settled state every entry waits for credit, a LIVE owner or the link, so that a closure lets no strip begin. -/
theorem closedState_noStripDue (settled : Settled s) (holders : HoldersOk s) (ok : WindowsOk s) : (closedState p rest f id w s).NoStripDue := by
  intro q idle live credit
  obtain ⟨_, _, _, _, port⟩ := closedState_port s p rest f id w q
  rw [port] at idle live credit ⊢
  have empty := settled.queue_nil holders ok ((without_outbound _ id w.cls).symm.trans idle) (by rw [← live]; cases w.cls <;> rfl)
    (by revert credit; cases w.cls <;> exact fun credit => credit)
  have essential : (s.port q).essential = [] := empty .essential
  have sheddable : (s.port q).sheddable = [] := empty .sheddable
  cases w.cls <;>
    simp [ConsumerPort.nextEntry, ConsumerPort.without, ConsumerPort.setQueue, ConsumerPort.queue, essential, sheddable]

/-- The holders of a slot after the closure are the entries that still name it (R107). -/
theorem closedState_heldBy (settled : Settled s) (holders : HoldersOk s) (ok : WindowsOk s) {slot : Nat} {b : Band} {r : SealRecord}
    (band : s.band slot = some b) (held : b.sealing = some r) :
    (settle (closedState p rest f id w s)).HeldBy slot b r ((settle (closedState p rest f id w s)).naming slot) := by
  obtain ⟨_, work⟩ := settle_noStripBegun (closedState_noStripDue (p := p) (rest := rest) (f := f) (id := id) (w := w) settled holders ok)
  set u := withdrawAll id w.cls (requestLeft p rest s) with hu
  have entries : ∀ q, ((settle (closedState p rest f id w s)).port q).entries = (u.port q).entries := fun q => by
    rw [(work q).entries]
    obtain ⟨_, _, _, _, port⟩ := closedState_port s p rest f id w q
    obtain ⟨_, _, port'⟩ := withdrawAll_port id w.cls (requestLeft p rest s) q
    rw [port, hu, port', requestLeft, State.port_setPort]
    split
    next own => rw [own]; cases w.cls <;> rfl
    · cases w.cls <;> rfl
  have bsc : (settle (closedState p rest f id w s)).bsc = u.bsc := (settle_bsc _).trans ((retireWindow_agree id w u).bsc (by decide))
  have before : (requestLeft p rest s).naming slot = s.naming slot := State.naming_congr (fun q => by
    rw [requestLeft, State.port_setPort]
    split
    next own => rw [own]; rfl
    · rfl) slot
  obtain ⟨count, least⟩ := holders.held slot b r band held
  have start : (requestLeft p rest s).HeldBy slot b r ((requestLeft p rest s).naming slot) := by
    rw [before, count, State.HeldBy, if_neg (by omega)]
    exact band.trans (congrArg some (by rw [← held]))
  rw [State.naming_congr entries]
  exact (withdrawAll_heldBy start id w.cls).congr (State.band_congr bsc slot) (by rw [bsc])

/-- The window table after the closure: the window FREE, or CLOSING with its strips in flight; the others as they were. -/
theorem closedState_window (settled : Settled s) (holders : HoldersOk s) (ok : WindowsOk s) (other : Nat) :
    (settle (closedState p rest f id w s)).window other =
      if other = id then
        if stripsInFlight id s = 0 then none else some { w with closing := some (stripsInFlight id s) }
      else s.window other := by
  obtain ⟨windows, _⟩ := settle_noStripBegun (closedState_noStripDue (p := p) (rest := rest) (f := f) (id := id) (w := w) settled holders ok)
  set u := withdrawAll id w.cls (requestLeft p rest s) with hu
  have flies : stripsInFlight id u = stripsInFlight id s := stripsInFlight_congr fun q => by
    obtain ⟨_, _, port⟩ := withdrawAll_port id w.cls (requestLeft p rest s) q
    rw [hu, port]
    show (((requestLeft p rest s).port q).without id w.cls).stripWindow = some id ↔ _
    rw [without_stripWindow, requestLeft, State.port_setPort]
    split
    next own => rw [own]; rfl
    · rfl
  have kept : u.window other = s.window other := by rw [State.window, hu, withdrawAll_windows]; rfl
  have retired : (settle (closedState p rest f id w s)).window other = (retireWindow id w u).window other := by
    rw [State.window, windows]
    rfl
  rw [retired, retireWindow, flies, ← kept]
  split
  · exact window_eraseWindow id other u
  · exact window_putWindow id other _ u

/-- The ports after the closure: the entries of the window gone, the credit, the state and the counts as they were. -/
theorem closedState_settled_port (settled : Settled s) (holders : HoldersOk s) (ok : WindowsOk s) (now : s.window id = some w) (q : Port) :
    (∀ cls, ((settle (closedState p rest f id w s)).port q).queue cls = ((s.port q).queue cls).filter fun e => decide (e.window ≠ id))
    ∧ ((settle (closedState p rest f id w s)).port q).dropped = (s.port q).dropped
    ∧ ((settle (closedState p rest f id w s)).port q).credit = (s.port q).credit
    ∧ ((settle (closedState p rest f id w s)).port q).state = (s.port q).state := by
  obtain ⟨_, work⟩ := settle_noStripBegun (closedState_noStripDue (p := p) (rest := rest) (f := f) (id := id) (w := w) settled holders ok)
  obtain ⟨_, _, _, _, port⟩ := closedState_port s p rest f id w q
  refine ⟨fun cls => ?_, ?_, ?_, ?_⟩
  · obtain ⟨_, _, withdrawn⟩ := withdrawAll_port id w.cls s q
    rw [(work q).queue, port, ← ok.withdrawn now, withdrawn]
    cases cls <;> rfl
  · obtain ⟨_, _, _, _, _, _, _, _, ends⟩ := settle_kept (closedState p rest f id w s) q
    rw [ends, port]
    cases w.cls <;> rfl
  · rw [(work q).credit, port]
    cases w.cls <;> rfl
  · rw [settle_state, port]
    cases w.cls <;> rfl

/-- The answer to the closure (R135, R165). -/
theorem closedState_delivered (settled : Settled s) (up : (s.port p).isUp = true) :
    Delivered s (settle (closedState p rest f id w s)) p rest (({ code := .done } : Answer).response f) := by
  have port : ∃ pending notice, (retireWindow id w (withdrawAll id w.cls (requestLeft p rest s))).port p
      = { ({ s.port p with requests := rest } : ConsumerPort).without id w.cls with pendingSet := pending, notice := notice } := by
    obtain ⟨pending, notice, port⟩ := withdrawAll_port id w.cls (requestLeft p rest s) p
    rw [requestLeft, State.port_setPort_self] at port
    exact ⟨pending, notice, (congrArg (PerPort.get · p) ((retireWindow_agree id w _).ports (by decide))).trans port⟩
  obtain ⟨_, _, port⟩ := port
  refine delivered_of_link settled up ?_ ?_ ?_ ?_
  all_goals rw [port]
  · revert up
    cases w.cls <;> exact fun up => up
  all_goals cases w.cls <;> rfl

end Closed

/-- The answers to WINDOW_CLOSE. -/
theorem windowClose_taken {s : State} {p : Port} {tag : Byte} {rest : List RequestFrame} {id : Nat} (settled : Settled s) (fits : id < 256)
    (taken : Taken s p ((Request.windowClose id).frame tag) rest) :
    (∀ c, entitledWindow p id s = .error c →
      exec (.windowClose p) s = .next (answered p rest (responseTo (.windowClose id) tag { code := c }) s))
    ∧ ∀ w, s.window id = some w → entitledWindow p id s = .ok w →
        exec (.windowClose p) s = .next (settle (closedState p rest ((Request.windowClose id).frame tag) id w s)) := by
  set frame := (Request.windowClose id).frame tag
  set t := requestLeft p rest s
  have kind : frame.requestKind = some .windowClose := Request.frame_kind _ tag
  have read : withFields readByte (windowClose p) frame t = windowClose p id t := withFields_read (readByte_leBytes fits) t
  refine ⟨fun c refused => takeRequest_answered settled taken kind (read.trans (windowClose_refused refused)), fun w now able => ?_⟩
  have acts : windowClose p id t = (retireWindow id w (withdrawAll id w.cls t), { code := .done }) := by
    have able' : entitledWindow p id t = .ok w := able
    have now' : t.window id = some w := now
    rw [windowClose, able', ← closeWindow_eq now']
  exact takeRequest_taken taken kind (read.trans acts)

/-- Settles O49: a closure withdraws the window's entries and lets no strip begin, since in a settled state no entry waits where a strip may
be sent; a return changes the window's record alone. -/
theorem windowCloseAndReturn : Obligations.WindowCloseAndReturn := by
  unfold Obligations.WindowCloseAndReturn
  intro s p tag rest id settled fits
  refine ⟨fun taken => ?_, fun taken => ?_⟩
  · obtain ⟨refused, closes⟩ := windowClose_taken settled fits taken
    extract_lets answer
    refine ⟨fun beyond => refused _ (entitledWindow_range s beyond), fun bound other => refused _ (entitledWindow_unknown bound other),
      fun w holders ok now opened party => ?_⟩
    have bound : id ≤ 63 := Nat.le_of_lt_succ (ok.ids id w now)
    have run := closes w now (entitledWindow_able bound now opened party)
    obtain ⟨_, run', agree⟩ := commandFrames (.windowClose p) s
    cases run.symm.trans run'
    have window := fun other => closedState_window (p := p) (rest := rest) (f := (Request.windowClose id).frame tag) (id := id) (w := w)
      settled holders ok other
    have ports := fun q => closedState_settled_port (p := p) (rest := rest) (f := (Request.windowClose id).frame tag) settled holders ok now q
    have freed := closedState_freed s p rest ((Request.windowClose id).frame tag) id w
    refine ⟨_, run, fun q => (ports q).1, fun none => ?_, fun some => ?_, fun other ne => ?_,
      fun slot b r band held => closedState_heldBy settled holders ok band held, freed.filling, freed.sealSequence, freed.reserve,
      freed.pressure, fun q => (ports q).2, closedState_delivered settled taken.isUp, agree⟩
    · rw [window, if_pos rfl, if_pos none]
    · rw [window, if_pos rfl, if_neg (by omega)]
    · rw [window, if_neg ne]
  · obtain ⟨refused, returns⟩ := windowReturn_taken settled fits taken
    exact ⟨fun beyond => refused _ (entitledWindow_range s beyond), fun bound other => refused _ (entitledWindow_unknown bound other),
      fun w bound now opened party => returns w now (entitledWindow_able bound now opened party)⟩

end Sys2Proof.Machine
end

section
/-!
SUPPORT AND PROOF. The reset of a RESTART (R176), at the end of the frame with its DONE and at the loss of its port's link (R175).
-/

namespace Sys2Proof.Machine

/-- Each queued marker counts once, at each of its requesters (R162). -/
theorem cancelMarkers_get (q : List MarkerEntry) (p : Port) : ∀ cancelled : PerPort Counter,
    (cancelMarkers q cancelled).get p = cancelled.get p + BitVec.ofNat 32 (q.countP fun e => e.requesters.get p) := by
  induction q with
  | nil => exact fun cancelled => (BitVec.add_zero _).symm
  | cons e q ih =>
    intro cancelled
    have first : ((cancelled.map fun r n => if e.requesters.get r then n + 1 else n).get p : Counter)
        = if e.requesters.get p then cancelled.get p + 1 else cancelled.get p := PerPort.get_map _ cancelled p
    rw [cancelMarkers, List.foldl_cons, ← cancelMarkers, ih, first, List.countP_cons]
    cases e.requesters.get p with
    | false => rfl
    | true =>
      simp only [if_true]
      rw [BitVec.add_assoc, Nat.add_comm (q.countP _) 1, BitVec.ofNat_add]
      rfl

theorem restartReset_port (s : State) (p : Port) :
    (restartReset s).port p = emptyPort (if (s.port p).linkUp then .live else .down) (s.port p).linkUp := PerPort.get_map _ s.ports p

theorem restartReset_markers (s : State) (p : Port) : (restartReset s).mku.fired.get p = s.mku.fired.get p
    ∧ (restartReset s).mku.cancelled.get p
      = s.mku.cancelled.get p + BitVec.ofNat 32 (s.mku.queue.countP fun e => e.requesters.get p) :=
  ⟨rfl, cancelMarkers_get s.mku.queue p s.mku.cancelled⟩

/-- The blocks after the reset, applied to a state that differs from `s` at the ports alone. -/
theorem restartReset_blocks {s u : State} (agree : State.Agree [.ports] s u) : BlocksReset s.mu.reference s (restartReset u) where
  motion := by
    rw [← agree.mu (by decide), ← agree.now (by decide)]
    rfl
  repeats := rfl
  lanes := fun k => by
    rw [State.lane, State.lane, ← agree.lanes (by decide)]
    cases k <;> rfl
  tables := fun k n => by cases k <;> rfl
  staging := fun _ => rfl
  page := ⟨rfl, rfl, rfl⟩
  engine := rfl
  bands := fun _ => rfl
  store := by
    refine ⟨?_, fun k => ⟨PerLane.get_all none k, PerLane.get_all false k⟩, rfl, rfl, rfl, rfl⟩
    show BandStore.initial.free = _
    rw [initial_free, Config.slotCount]
  windows := fun _ => rfl
  shared := rfl
  markers := rfl
  outputs := fun o => by cases o <;> rfl
  kept := ⟨agree.pending (by decide), agree.now (by decide), agree.dram (by decide)⟩

/-- Settles O53: both moments apply `restartReset`, the loss of the link to the state in which that link is down. -/
theorem restartApplied : Obligations.RestartApplied := by
  unfold Obligations.RestartApplied
  refine ⟨fun s p x restart sending kind code => ?_, fun s p restart up => ?_⟩
  · have final : x.isRestartDone = true := by rw [Response.isRestartDone, kind, code]; rfl
    refine ⟨restartReset s, ?_, restartReset_blocks (.refl _ s), restartReset_port s, restartReset_markers s⟩
    show execFrameCompletion p s = _
    rw [execFrameCompletion, sending]
    exact if_pos ⟨restart, final⟩
  · set u := s.setPort p { s.port p with linkUp := false } with lost
    refine ⟨restartReset u, ?_, restartReset_blocks (agree_setPort s p _ (by decide)), ?_, fun q other => ?_, restartReset_markers u⟩
    · show execSteeringLinkLoss p s = _
      unfold execSteeringLinkLoss
      split
      next down => simp [ConsumerPort.isUp, down] at up
      all_goals exact if_pos restart
    · rw [restartReset_port, lost, State.port_setPort_self]
      rfl
    · rw [restartReset_port, lost, State.port_setPort_ne _ _ other]

end Sys2Proof.Machine
end

section
/-!
SUPPORT AND PROOF. Every event that can change what the arbiters and the stall timers depend on ends with their judgment (R135, R141,
log 9); the few that do not leave those parts as they are, or leave the changed ports empty.
-/

namespace Sys2Proof.Machine

/-- A port that waits for nothing to send, with its stall timer stopped. -/
structure ConsumerPort.Idles (c : ConsumerPort) : Prop where
  responses : c.responses = []
  notice : c.notice = none
  essential : c.essential = []
  sheddable : c.sheddable = []
  stall : c.stall = none

theorem ConsumerPort.Idles.initial (state : PortState) (linkUp : Bool) : (ConsumerPort.initial state linkUp).Idles := ⟨rfl, rfl, rfl, rfl, rfl⟩

theorem ConsumerPort.Idles.restful {c : ConsumerPort} (h : c.Idles) (windows : List (Nat × Window)) (bands : List (Nat × Band)) :
    c.restful windows bands := fun _ _ => ⟨h.responses, h.notice, fun e next => by
  rw [ConsumerPort.nextEntry, h.essential, h.sheddable] at next
  cases next⟩

theorem ConsumerPort.Idles.stalling {c : ConsumerPort} (h : c.Idles) : c.stall.isSome = c.stalling := by
  rw [h.stall, ConsumerPort.stalling, h.essential, h.sheddable]
  simp

/-- The arbiters and the stall timers are judged where every port waits for nothing, or is as in a settled state. -/
theorem settled_of_idles {s t : State} (h : Settled s) (windows : t.windows = s.windows) (bands : t.bsc.bands = s.bsc.bands)
    (ports : ∀ p, (t.port p).Idles ∨ t.port p = s.port p) : Settled t where
  arbiter := fun p => (arbitrate_eq_self t p).mpr <| by
    rcases ports p with idles | same
    · exact idles.restful _ _
    · rw [same, windows, bands]
      exact h.port_restful p
  stall := fun p => by
    rcases ports p with idles | same
    · exact idles.stalling
    · rw [same]
      exact h.stall p

theorem settled_of_all_idle {s : State} (ports : ∀ p, (s.port p).Idles) : Settled s where
  arbiter := fun p => (arbitrate_eq_self s p).mpr ((ports p).restful _ _)
  stall := fun p => (ports p).stalling

theorem settled_powerOnReset (inputs : EncInputs) (s : State) : Settled (powerOnReset inputs s) := settled_of_all_idle fun p => by
  rw [show (powerOnReset inputs s).port p = ConsumerPort.initial .down (s.port p).linkUp from PerPort.get_map _ s.ports p]
  exact .initial _ _

theorem settled_restartReset (s : State) : Settled (restartReset s) := settled_of_all_idle fun p => by
  rw [restartReset_port]
  exact .initial _ _

/-- An event that ends with the judgment. -/
theorem settled_of_settle {u t : State} (e : (Host.Outcome.next (settle u) : Host.Outcome State Fault Refusal) = .next t) : Settled t := by
  cases e
  exact settled_settle u

theorem Settled.takeRequest {s t : State} {p : Port} {kind : Option RequestKind} {act : RequestFrame → State → State × Answer}
    (h : Settled s) (e : takeRequest p kind act s = .next t) : Settled t := by
  unfold Machine.takeRequest at e
  split at e
  · cases e; exact h
  · split at e
    · exact settled_of_settle e
    · cases e; exact h

theorem Settled.execStopTimerExpiry {s t : State} (h : Settled s) (e : execStopTimerExpiry s = .next t) : Settled t := by
  unfold Machine.execStopTimerExpiry at e
  split at e
  · cases e; exact h
  · exact settled_of_settle e

theorem Settled.execSteeringLinkUp {s t : State} {p : Port} (h : Settled s) (e : execSteeringLinkUp p s = .next t) : Settled t := by
  unfold Machine.execSteeringLinkUp at e
  dsimp only at e
  split at e
  · cases e
    refine settled_of_idles h rfl rfl fun q => ?_
    rw [State.port_setPort]
    split
    · exact .inl ⟨rfl, rfl, rfl, rfl, rfl⟩
    · exact .inr rfl
  all_goals cases e; exact h

theorem Settled.execFrameCompletion {s t : State} {p : Port} (h : Settled s) (e : execFrameCompletion p s = .next t) : Settled t := by
  unfold Machine.execFrameCompletion at e
  split at e
  · split at e
    · cases e; exact settled_restartReset s
    · exact settled_of_settle e
  · exact settled_of_settle e
  all_goals cases e; exact h

theorem Settled.execStripCompletion {s t : State} {p : Port} (h : Settled s) (e : execStripCompletion p s = .next t) : Settled t := by
  unfold Machine.execStripCompletion at e
  split at e
  · exact settled_of_settle e
  all_goals cases e; exact h

theorem Settled.execStallTimerExpiry {s t : State} {p : Port} (h : Settled s) (e : execStallTimerExpiry p s = .next t) : Settled t := by
  unfold Machine.execStallTimerExpiry at e
  split at e
  · exact settled_of_settle e
  · cases e; exact h

theorem Settled.execSteeringLinkLoss {s t : State} {p : Port} (h : Settled s) (e : execSteeringLinkLoss p s = .next t) : Settled t := by
  unfold Machine.execSteeringLinkLoss at e
  split at e
  · cases e; exact h
  all_goals
    split at e
    · cases e; exact settled_restartReset _
    · exact settled_of_settle e

theorem Settled.execRequestArrival {s t : State} {p : Port} {bytes : List Byte} (h : Settled s)
    (e : execRequestArrival p bytes s = .next t) : Settled t := by
  unfold Machine.execRequestArrival at e
  split at e
  · split at e <;> exact settled_of_settle e
  · cases e; exact h

/-- Every command leaves the arbiters and the stall timers judged. One whose frame spares the store, the windows and the ports has nothing
to judge. -/
theorem Settled.exec {c : Instr} {s t : State} (h : Settled s) (e : exec c s = .next t) : Settled t := by
  by_cases spared : Part.bsc ∉ touched c ∧ Part.windows ∉ touched c ∧ Part.ports ∉ touched c
  · obtain ⟨u, run, agree⟩ := commandFrames c s
    obtain ⟨bsc, windows, ports⟩ := spared
    cases run.symm.trans e
    exact h.congr (agree.ports ports) (agree.windows windows) (by rw [agree.bsc bsc])
  · cases c with
    | powerOn inputs => cases e; exact settled_powerOnReset inputs s
    | steeringLinkUp p => exact h.execSteeringLinkUp e
    | frameCompletion p => exact h.execFrameCompletion e
    | stripCompletion p => exact h.execStripCompletion e
    | stallTimerExpiry p => exact h.execStallTimerExpiry e
    | steeringLinkLoss p => exact h.execSteeringLinkLoss e
    | requestArrival p bytes => exact h.execRequestArrival e
    | stopTimerExpiry => exact h.execStopTimerExpiry e
    | encoderCount _ | markEdge _ | spanEnd | lineArrival _ _ | laneLinkLoss _ | laneLinkReturn _ => exact settled_of_settle e
    | setMotion _ | repeatRestart _ | setRepeat _ | snapshot _ | log _ | setLane _ | laneInfo _ | pageClear _ | pageSeek _ | pageFill _
    | pageCommit _ | tableRead _ | levelStart _ | levelAbort _ | levelResults _ | setStore _ | windowOpen _ | windowClose _
    | windowReturn _ | windowInfo _ | grant _ | badKind _ | claim _ | release _ | notices _ | status _ | restart _ | markOut _
    | setMarkerOut _ => exact h.takeRequest e
    | gateReopen | speedGateEnd | chainExpiry | pulseEnd _ => exact absurd (by simp [touched]) spared

/-- Settles O13. -/
theorem stepKeepsSettled : Obligations.StepKeepsSettled := by
  unfold Obligations.StepKeepsSettled
  intro s t h e
  unfold Machine.step at e
  split at e
  · cases e; exact h.congr rfl rfl rfl
  next c rest _ => exact (h.congr (t := s.withPending rest) rfl rfl rfl).exec e

end Sys2Proof.Machine
end

section
/-!
SUPPORT. Ports without work (R131, R132, R148, R174): what an event may do to the ports so that none goes DOWN and a DOWN one stays without
work, and that the raisings and the work on lines, triggers and encoder counts are such events.
-/

namespace Sys2Proof.Machine

/-! ### One port -/

/-- A port without credit, entries, frames, requests and notices (R148, R174). -/
abbrev ConsumerPort.Quiet (c : ConsumerPort) : Prop :=
  c.credit = 0 ∧ c.essential = [] ∧ c.sheddable = [] ∧ c.outbound = none ∧ c.stall = none ∧ c.requests = [] ∧ c.responses = []
    ∧ c.notice = none ∧ c.pendingSet = 0 ∧ c.mask = 0

/-- A port whose link is down is DOWN, and is quiet if it is DOWN. -/
structure ConsumerPort.Sound (c : ConsumerPort) : Prop where
  link : c.linkUp = false → c.state = .down
  quiet : c.state = .down → c.Quiet

theorem isUp_iff (c : ConsumerPort) : c.isUp = true ↔ c.state ≠ .down := bne_iff_ne

/-- Work is no matter at a port that is up and stays up. -/
theorem ConsumerPort.Sound.of_up {c d : ConsumerPort} (h : c.Sound) (before : c.isUp = true) (linkUp : d.linkUp = c.linkUp)
    (after : d.isUp = true) : d.Sound where
  link := fun down => absurd (h.link (linkUp ▸ down)) ((isUp_iff c).mp before)
  quiet := fun down => absurd down ((isUp_iff d).mp after)

theorem ConsumerPort.Sound.setQueue_nil {c : ConsumerPort} (h : c.Sound) (cls : DeliveryClass) : (c.setQueue cls []).Sound := by
  cases cls with
  | essential =>
    refine ⟨h.link, fun down => ?_⟩
    obtain ⟨credit, _, rest⟩ := h.quiet down
    exact ⟨credit, rfl, rest⟩
  | sheddable =>
    refine ⟨h.link, fun down => ?_⟩
    obtain ⟨credit, essential, _, rest⟩ := h.quiet down
    exact ⟨credit, essential, rfl, rest⟩

theorem ConsumerPort.Sound.idle {c : ConsumerPort} (h : c.Sound) : ({ c with outbound := none } : ConsumerPort).Sound := by
  refine ⟨h.link, fun down => ?_⟩
  obtain ⟨credit, essential, sheddable, _, rest⟩ := h.quiet down
  exact ⟨credit, essential, sheddable, rfl, rest⟩

theorem ConsumerPort.Sound.unstalled {c : ConsumerPort} (h : c.Sound) : ({ c with stall := none } : ConsumerPort).Sound := by
  refine ⟨h.link, fun down => ?_⟩
  obtain ⟨credit, essential, sheddable, outbound, _, rest⟩ := h.quiet down
  exact ⟨credit, essential, sheddable, outbound, rfl, rest⟩

theorem ConsumerPort.Sound.initial {state : PortState} {linkUp : Bool} (link : linkUp = false → state = .down) :
    (ConsumerPort.initial state linkUp).Sound := ⟨link, fun _ => ⟨rfl, rfl, rfl, rfl, rfl, rfl, rfl, rfl, rfl, rfl⟩⟩

/-! ### The invariant, port by port -/

theorem PortsOk.sound {s : State} (h : PortsOk s) (p : Port) : (s.port p).Sound := ⟨h.link p, h.quiet p⟩

theorem portsOk_of_sound {s : State} (sound : ∀ p, (s.port p).Sound) (holder : ∀ p, s.shared.holder = some p → (s.port p).isUp = true)
    (restart : ∀ p, s.shared.restart = some p → s.shared.holder = some p) : PortsOk s where
  link := fun p => (sound p).link
  quiet := fun p => (sound p).quiet
  holder := holder
  restart := restart

/-- No port goes DOWN, no port that is DOWN is given work, and the claim stays as it is. -/
structure PortsKept (s t : State) : Prop where
  up : ∀ p, (s.port p).isUp = true → (t.port p).isUp = true
  sound : ∀ p, (s.port p).Sound → (t.port p).Sound
  holder : t.shared.holder = s.shared.holder
  restart : t.shared.restart = s.shared.restart

theorem PortsOk.kept {s t : State} (h : PortsOk s) (k : PortsKept s t) : PortsOk t :=
  portsOk_of_sound (fun p => k.sound p (h.sound p)) (fun p own => k.up p (h.holder p (k.holder.symm.trans own)))
    fun p own => k.holder.trans (h.restart p (k.restart.symm.trans own))

namespace PortsKept

variable {s t u : State}

theorem of_ports (ports : t.ports = s.ports) (holder : t.shared.holder = s.shared.holder) (restart : t.shared.restart = s.shared.restart) :
    PortsKept s t := by
  have port : ∀ p, t.port p = s.port p := fun p => congrArg (PerPort.get · p) ports
  exact ⟨fun p => by rw [port]; exact id, fun p => by rw [port]; exact id, holder, restart⟩

theorem of_agree {A : List Part} (agree : State.Agree A s t) (ports : .ports ∉ A := by decide) (shared : .shared ∉ A := by decide) :
    PortsKept s t := of_ports (agree.ports ports) (by rw [agree.shared shared]) (by rw [agree.shared shared])

theorem refl (s : State) : PortsKept s s := of_ports rfl rfl rfl

theorem trans (h : PortsKept s t) (g : PortsKept t u) : PortsKept s u :=
  ⟨fun p => g.up p ∘ h.up p, fun p => g.sound p ∘ h.sound p, g.holder.trans h.holder, g.restart.trans h.restart⟩

theorem ite {c : Prop} [Decidable c] (h : PortsKept s t) (g : PortsKept s u) : PortsKept s (if c then t else u) :=
  iteInduction (motive := PortsKept s) (fun _ => h) fun _ => g

theorem foldl {α : Type} {f : State → α → State} (h : ∀ s x, PortsKept s (f s x)) (l : List α) : ∀ s, PortsKept s (l.foldl f s) := by
  induction l with
  | nil => exact refl
  | cons x l ih => exact fun s => (h s x).trans (ih _)

theorem setPort {p : Port} {c : ConsumerPort} (up : (s.port p).isUp = true → c.isUp = true) (sound : (s.port p).Sound → c.Sound) :
    PortsKept s (s.setPort p c) := by
  refine ⟨fun q => ?_, fun q => ?_, rfl, rfl⟩
  all_goals
    rw [State.port_setPort]
    split
    next own => rw [own]; assumption
    · exact id

/-- A port that is up given anything but another link state. -/
theorem setPort_up {p : Port} {c : ConsumerPort} (before : (s.port p).isUp = true) (linkUp : c.linkUp = (s.port p).linkUp)
    (after : c.isUp = true) : PortsKept s (s.setPort p c) := setPort (fun _ => after) fun h => h.of_up before linkUp after

/-- A kind raised at ports that are up alone (R170). -/
theorem raiseWhere {sel : Port → ConsumerPort → Bool} (k : NoticeKind) (s : State) (up : ∀ p c, sel p c = true → c.isUp = true) :
    PortsKept s (raiseWhere sel k s) := by
  have raisedUp : ∀ p, ((Machine.raiseWhere sel k s).port p).isUp = (s.port p).isUp := (raiseWhere_raises sel k s).isUp
  refine ⟨fun p => by rw [raisedUp]; exact id, fun p h => ?_, rfl, rfl⟩
  by_cases selected : sel p (s.port p) = true
  · obtain ⟨_, _, port⟩ := raiseWhere_kept sel k s p
    exact h.of_up (up p _ selected) (by rw [port]) (by rw [raisedUp]; exact up p _ selected)
  · rw [raiseWhere_port, if_neg selected]
    exact h

theorem raiseUp (k : NoticeKind) (s : State) : PortsKept s (raiseUp k s) := raiseWhere k s fun _ _ => id

theorem raiseLive (k : NoticeKind) (s : State) : PortsKept s (raiseLive k s) := raiseWhere k s fun _ _ => isUp_of_isLive

theorem raiseOthers (p : Port) (k : NoticeKind) (s : State) : PortsKept s (raiseOthers p k s) :=
  raiseWhere k s fun _ _ both => isUp_of_isLive ((Bool.and_eq_true _ _).mp both).2

theorem raiseAt (p : Port) (k : NoticeKind) (s : State) : PortsKept s (raiseAt p k s) :=
  raiseWhere k s fun _ _ both => ((Bool.and_eq_true _ _).mp both).2

theorem setLane (k : Lane) (l : LaneFrontEnd) (s : State) : PortsKept s (s.setLane k l) := of_ports rfl rfl rfl

theorem updateLane (k : Lane) (f : LaneFrontEnd → LaneFrontEnd) (s : State) : PortsKept s (updateLane k f s) := setLane k _ s

theorem withBsc (s : State) (x : BandStore) : PortsKept s (s.withBsc x) := of_ports rfl rfl rfl

theorem withRu (s : State) (x : RepeatUnit) : PortsKept s (s.withRu x) := of_ports rfl rfl rfl

theorem withMu (s : State) (x : MotionUnit) : PortsKept s (s.withMu x) := of_ports rfl rfl rfl

theorem withCb (s : State) (x : CorrectionBlock) : PortsKept s (s.withCb x) := of_ports rfl rfl rfl

theorem withLe (s : State) (x : LevelingEngine) : PortsKept s (s.withLe x) := of_ports rfl rfl rfl

theorem withMku (s : State) (x : MarkerUnit) : PortsKept s (s.withMku x) := of_ports rfl rfl rfl

theorem withWindows (s : State) (x : List (Nat × Window)) : PortsKept s (s.withWindows x) := of_ports rfl rfl rfl

end PortsKept

/-! ### The Repeat Unit, the Marker Unit and the Motion Unit -/

theorem goLock_portsKept (l : LockState) (s : State) : PortsKept s (goLock l s) := .ite (.refl s) ((PortsKept.withRu s _).trans (.raiseUp _ _))

theorem applySettings_portsKept (s : State) : PortsKept s (applySettings s) := by
  unfold applySettings
  split
  · exact .refl s
  · dsimp only
    split
    · exact ((PortsKept.withRu s _).trans (.withRu _ _)).trans (goLock_portsKept _ _)
    · exact (PortsKept.withRu s _).trans (goLock_portsKept _ _)
    · exact .withRu s _

theorem openRepeat_portsKept (w : Line) (cause : Option RestartKind) (s : State) : PortsKept s (openRepeat w cause s) :=
  (((PortsKept.withRu s _).trans (applySettings_portsKept _)).trans (.withRu _ _)).trans (.raiseUp _ _)

theorem phaseAdvance_portsKept (w : Line) (s : State) : PortsKept s (phaseAdvance w s) :=
  .ite (.withRu s _) ((PortsKept.withRu s _).trans (openRepeat_portsKept _ _ _))

theorem restartStep_portsKept (w : Line) (s : State) : PortsKept s (restartStep w s) := by
  cases restart : s.ru.restart with
  | none => rw [restartStep_none restart]; exact .refl s
  | some kind =>
    unfold restartStep
    rw [restart]
    exact (PortsKept.ite (.withRu s _) (openRepeat_portsKept w _ s)).trans (.withRu _ _)

theorem windowEnd_portsKept (w : Line) (s : State) : PortsKept s (windowEnd w s) :=
  .ite (.ite ((PortsKept.withRu s _).trans (goLock_portsKept _ _)) ((PortsKept.withRu s _).trans (goLock_portsKept _ _))) (.refl s)

theorem repeatDueLine_portsKept (w : Line) (s : State) : PortsKept s (repeatDueLine w s) :=
  (((phaseAdvance_portsKept w s).trans (restartStep_portsKept w _)).trans (windowEnd_portsKept w _)).trans
    (.of_agree (A := [.ru]) (chainExpiry_agree w _ (by decide)))

theorem overrunIndication_portsKept (s : State) : PortsKept s (overrunIndication s) := by
  unfold overrunIndication
  split
  · exact .refl s
  all_goals exact (PortsKept.withRu s _).trans (goLock_portsKept _ _)

theorem markTransition_portsKept (edge : MarkDirection) (s : State) : PortsKept s (markTransition edge s) := by
  have candidate : PortsKept s (markCandidate s) :=
    (PortsKept.withRu s _).trans (.ite ((PortsKept.withRu _ _).trans (goLock_portsKept _ _)) (.refl _))
  have judged : PortsKept s (markJudge s) := .ite ((PortsKept.withRu s _).trans (goLock_portsKept _ _)) (.withRu s _)
  refine .ite ?_ (.refl s)
  split
  · exact .refl s
  · exact candidate
  · exact judged
  · exact judged

theorem fireEntry_portsKept (s : State) (e : MarkerEntry) : PortsKept s (fireEntry s e) :=
  (PortsKept.withMku s _).trans (.raiseWhere _ _ fun _ _ both => ((Bool.and_eq_true _ _).mp both).2)

theorem markerDueLine_portsKept (w : Line) (s : State) : PortsKept s (markerDueLine w s) :=
  (PortsKept.withMku s _).trans (.foldl fireEntry_portsKept _ _)

theorem countDueLine_portsKept (s : State) : PortsKept s (countDueLine s) := by
  unfold countDueLine
  dsimp only
  split
  · exact (PortsKept.withMu s _).trans (.raiseUp _ _)
  · exact .withMu s _

/-! ### The Correction Block and the Leveling Engine -/

theorem completeCommit_portsKept (k : Lane) (s : State) : PortsKept s (completeCommit k s) := by
  unfold completeCommit
  split
  · exact .refl s
  · exact .ite ((PortsKept.withCb s _).trans (.raiseAt _ _ _)) (.refl s)

theorem endSearch_portsKept (x : Search) (cause : EndCause) (w : Line) (s : State) : PortsKept s (endSearch x cause w s) := by
  unfold endSearch
  extract_lets results staged
  have stages : PortsKept s staged := .ite (.of_ports rfl rfl rfl) (.refl s)
  exact (stages.trans (.withLe _ _)).trans (.raiseAt _ _ _)

theorem updateRecord_portsKept (x : Search) (k : Lane) (r : SearchRecord) (s : State) : PortsKept s (updateRecord x k r s) :=
  .ite (.withLe s _) (endSearch_portsKept _ _ _ s)

theorem levelLine_portsKept (k : Lane) (stamp : Line) (offset : Nat) (samples : Option (List Byte)) (s : State) :
    PortsKept s (levelLine k stamp offset samples s) := by
  unfold levelLine
  split
  · exact .refl s
  · exact .refl s
  · split
    · exact .refl s
    · exact .ite (.ite (updateRecord_portsKept _ _ _ s) (.withLe s _)) (.refl s)

theorem levelLeavesRun_portsKept (k : Lane) (s : State) : PortsKept s (levelLeavesRun k s) := by
  unfold levelLeavesRun
  split
  · exact .refl s
  · exact .refl s
  · split
    · exact .refl s
    · exact .ite (updateRecord_portsKept _ _ _ s) (.refl s)

theorem levelSpan_portsKept (w : Line) (s : State) : PortsKept s (levelSpan w s) := by
  unfold levelSpan
  split
  · exact .refl s
  · exact .refl s
  · exact .ite (endSearch_portsKept _ _ _ s) (.refl s)

/-! ### The store and the matching of a sealed band -/

theorem judgePressure_portsKept (s : State) : PortsKept s (judgePressure s) := by
  have judged : ∀ x, PortsKept s (raiseLive .pressure (s.withBsc x)) := fun x => (PortsKept.withBsc s x).trans (.raiseLive _ _)
  exact .ite (.ite (judged _) (.refl s)) (.ite (judged _) (.refl s))

theorem freeSlot_portsKept (slot : Nat) (s : State) : PortsKept s (freeSlot slot s) :=
  (PortsKept.withBsc s _).trans (judgePressure_portsKept _)

theorem releaseSlot_portsKept (slot : Nat) (s : State) : PortsKept s (releaseSlot slot s) := by
  rcases releaseSlot_cases slot s with same | freed | ⟨b, lowered⟩
  · rw [same]; exact .refl s
  · rw [freed]; exact freeSlot_portsKept slot s
  · rw [lowered]; exact .withBsc s _

theorem releaseEntries_portsKept (es : List Entry) (s : State) : PortsKept s (releaseEntries es s) :=
  .foldl (f := fun s (e : Entry) => releaseSlot e.slot s) (fun s e => releaseSlot_portsKept e.slot s) es s

theorem countDropped_portsKept (p : Port) (s : State) : PortsKept s (countDropped p s) := .setPort id fun h => ⟨h.link, h.quiet⟩

theorem setQueue_linkUp (c : ConsumerPort) (cls : DeliveryClass) (q : List Entry) : (c.setQueue cls q).linkUp = c.linkUp := by
  cases cls <;> rfl

/-- An entry joins a queue only at a LIVE owner (R126). -/
theorem matchWindow_portsKept (slot : Nat) (b : Band) (acc : State × Nat) (id : Nat) : PortsKept acc.1 (matchWindow slot b acc id).1 := by
  unfold matchWindow
  split
  · exact .refl _
  next w _ =>
    split
    · split
      next allowed =>
        have up : (acc.1.port w.owner).isUp = true := (isUp_iff _).mpr fun down => by
          rw [((entryAllowed_iff w acc.1).mp allowed).1] at down
          cases down
        exact .setPort_up up (setQueue_linkUp _ _ _) (by rw [setQueue_isUp]; exact up)
      · exact (PortsKept.withWindows acc.1 _).trans (countDropped_portsKept w.owner _)
    · exact .refl _

theorem matchBand_portsKept (slot : Nat) (b : Band) (s : State) : PortsKept s (matchBand slot b s).1 := by
  have fold : ∀ (ids : List Nat) (acc : State × Nat), PortsKept acc.1 (ids.foldl (matchWindow slot b) acc).1 := by
    intro ids
    induction ids with
    | nil => exact fun acc => .refl _
    | cons id ids ih => exact fun acc => (matchWindow_portsKept slot b acc id).trans (ih _)
  exact fold _ (s, 0)

theorem sealBand_portsKept (k : Lane) (stop : Bool) (s : State) : PortsKept s (sealBand k stop s) := by
  unfold sealBand
  split
  · exact .refl s
  · split
    · exact .withBsc s _
    next slot _ _ _ _ =>
      have matched : ∀ b, PortsKept s (matchBand slot b
          (clearFilling k (s.withBsc { s.bsc with sealSequence := s.bsc.sealSequence + 1 }))).1 := fun b =>
        ((PortsKept.withBsc s _).trans (.withBsc _ _)).trans (matchBand_portsKept _ _ _)
      exact .ite ((matched _).trans (freeSlot_portsKept _ _)) ((matched _).trans (.withBsc _ _))

theorem stopSeal_portsKept (s : State) : PortsKept s (stopSeal s) :=
  .foldl (f := fun s k => sealBand k true s) (fun s k => sealBand_portsKept k true s) allLanes s

theorem extendBand_portsKept (slot : Nat) (b : Band) (x : Placement) (s : State) : PortsKept s (extendBand slot b x s) := by
  unfold extendBand
  extract_lets t
  have written : PortsKept s t := by
    unfold t
    split <;> exact .of_ports rfl rfl rfl
  exact .ite (written.trans (sealBand_portsKept _ _ _)) written

theorem openBand_portsKept (x : Placement) (s : State) : PortsKept s (openBand x s) := by
  unfold openBand
  split
  · exact .withBsc s _
  · exact ((PortsKept.withBsc s _).trans (judgePressure_portsKept _)).trans (extendBand_portsKept _ _ _ _)

theorem place_portsKept (x : Placement) (s : State) : PortsKept s (place x s) := by
  have next := (sealBand_portsKept x.lane false s).trans (openBand_portsKept x _)
  unfold place
  split
  · exact openBand_portsKept x s
  · split
    · exact next
    · exact .ite (extendBand_portsKept _ _ x s) next

/-! ### Line events -/

theorem runLine_portsKept (k : Lane) (w : Line) (offset : Nat) (b : LineBody) (s : State) : PortsKept s (runLine k w offset b s) := by
  unfold runLine
  dsimp only
  refine .ite (.updateLane _ _ s) ?_
  split
  · exact .updateLane _ _ s
  · exact ((PortsKept.updateLane k _ s).trans (place_portsKept _ _)).trans (levelLine_portsKept _ _ _ _ _)

theorem lineEvent_portsKept (k : Lane) (w : Line) (offset : Nat) (mode : ActiveMode) (b : LineBody) (s : State) :
    PortsKept s (lineEvent k w offset mode b s) := by
  have begun : PortsKept s (lineBegun k s) := (completeCommit_portsKept k s).trans (.updateLane _ _ _)
  cases mode with
  | run => rw [lineEvent_run]; exact begun.trans (runLine_portsKept _ _ _ _ _)
  | check => rw [lineEvent_check]; exact begun.trans (.updateLane _ _ _)

theorem removeOldest_portsKept (k : Lane) (b : LineBody) (s : State) : PortsKept s (removeOldest k b s) := by
  cases fifo : (s.lane k).fifo with
  | nil => rw [removeOldest_empty fifo]; exact .refl s
  | cons e rest =>
    rw [removeOldest_cons fifo]
    have event := (PortsKept.setLane k { s.lane k with fifo := rest, drain := (s.lane k).drain - 1 } s).trans
      (lineEvent_portsKept k e.wln e.offset e.mode b _)
    exact .ite (event.trans (sealBand_portsKept k false _)) event

theorem loseOldest_portsKept (k : Lane) (s : State) : PortsKept s (loseOldest k s) :=
  (removeOldest_portsKept k .missing s).trans (.setLane k _ _)

theorem flushCounted_portsKept (k : Lane) (n : Nat) : ∀ s, PortsKept s (flushCounted k n s) := by
  induction n with
  | zero => exact .refl
  | succ n ih => exact fun s => (loseOldest_portsKept k s).trans (ih _)

theorem flushMissing_portsKept (k : Lane) (n : Nat) : ∀ s, PortsKept s (flushMissing k n s) := by
  induction n with
  | zero => exact .refl
  | succ n ih => exact fun s => (removeOldest_portsKept k _ s).trans (ih _)

/-! ### Triggers and lane links -/

theorem changeState_portsKept (k : Lane) (new : LaneState) (s : State) : PortsKept s (changeState k new s) := by
  unfold changeState
  extract_lets old entered raised completed
  have enters : PortsKept s entered := .updateLane k _ s
  have raises : PortsKept s raised := .ite (enters.trans (.raiseUp _ _)) enters
  have completes : PortsKept s completed := .ite (raises.trans (completeCommit_portsKept k _)) raises
  exact .ite (completes.trans (levelLeavesRun_portsKept k _)) completes

theorem modeActions_portsKept (k : Lane) (old new : Option ActiveMode) (s : State) : PortsKept s (modeActions k old new s) := by
  have changed : PortsKept s (updateLane k (modeChanged old new) s) := .updateLane _ _ s
  rw [modeActions_eq]
  exact .ite (changed.trans (sealBand_portsKept k false _)) changed

theorem sourceActions_portsKept (k : Lane) (new : Source) (s : State) : PortsKept s (sourceActions k new s) :=
  .ite (.refl s) (((flushCounted_portsKept k _ s).trans (.updateLane _ _ _)).trans (sealBand_portsKept k false _))

theorem applyRepeatStart_portsKept (k : Lane) (s : State) : PortsKept s (applyRepeatStart k s) := by
  have offset : PortsKept s (updateLane k applyOffset s) := .updateLane _ _ s
  unfold applyRepeatStart
  dsimp only
  split
  · exact offset
  · exact ((((offset.trans (.updateLane k _ _)).trans (changeState_portsKept k _ _)).trans (modeActions_portsKept _ _ _ _)).trans
      (sourceActions_portsKept _ _ _))

theorem handleTrigger_portsKept (k : Lane) (w : Line) (s : State) : PortsKept s (handleTrigger k w s) := by
  unfold handleTrigger
  dsimp only
  split
  · exact .refl s
  · exact lineEvent_portsKept _ _ _ _ _ s
  · split
    · exact lineEvent_portsKept _ _ _ _ _ s
    · exact lineEvent_portsKept _ _ _ _ _ s
    · exact .trans (.ite (loseOldest_portsKept k s) (.refl s)) (.updateLane _ _ _)

theorem triggerLanes_portsKept (w : Line) (mark : Bool) (s : State) : PortsKept s (triggerLanes w mark s) :=
  .foldl (f := takeTrigger w mark)
    (fun s k => .trans (.ite (applyRepeatStart_portsKept k s) (.refl s)) (handleTrigger_portsKept k w _)) allLanes s

theorem arriveLine_portsKept (k : Lane) (frame : LineFrame) (s : State) : PortsKept s (arriveLine k frame s) := by
  unfold arriveLine
  refine .ite ?_ (.refl s)
  split
  · exact .refl s
  · exact .ite (.updateLane _ _ s) (removeOldest_portsKept k _ s)
  · exact .trans (.updateLane _ _ s) (removeOldest_portsKept k _ _)

theorem loseLaneLink_portsKept (k : Lane) (s : State) : PortsKept s (loseLaneLink k s) := by
  have faulted : ∀ s, PortsKept s (faultLane k s) := fun s => by
    unfold faultLane
    split
    · exact changeState_portsKept _ _ s
    · exact .refl s
    · exact .refl s
  exact .ite (((PortsKept.updateLane k _ s).trans (faulted _)).trans (flushMissing_portsKept k _ _)) (.refl s)

theorem returnLaneLink_portsKept (k : Lane) (s : State) : PortsKept s (returnLaneLink k s) := by
  have linked : PortsKept s (updateLane k (fun l => { l with linkUp := true }) s) := .updateLane _ _ s
  unfold returnLaneLink
  dsimp only
  split
  · exact linked.trans (changeState_portsKept _ _ _)
  · exact linked
  · exact linked

/-! ### Encoder counts -/

theorem afterReceivers_portsKept (s : State) : PortsKept s (afterReceivers s) :=
  ((((countDueLine_portsKept s).trans (repeatDueLine_portsKept _ _)).trans (.of_agree (markRepeatStart_agree _ _))).trans
    (markerDueLine_portsKept _ _)).trans (levelSpan_portsKept (s.mu.wln + 1) _)

theorem dueLine_portsKept (s : State) : PortsKept s (dueLine s) := by
  rw [dueLine_eq]
  refine (afterReceivers_portsKept s).trans ?_
  unfold gateDueLine
  split
  · exact (PortsKept.withMu _ _).trans (triggerLanes_portsKept _ _ _)
  · exact (PortsKept.withMu _ _).trans (.raiseUp _ _)

theorem encoderChange_portsKept (inputs : EncInputs) (s : State) : PortsKept s (encoderChange inputs s) := by
  have stepped : ∀ s, PortsKept s (lineStep s) := fun s => .ite (.withMu s _) (dueLine_portsKept s)
  have forward : ∀ s, PortsKept s (forwardCount s) := fun s => .ite ((PortsKept.withMu s _).trans (stepped _)) (.withMu s _)
  have back : ∀ s, PortsKept s (reverseStep s) := fun s =>
    .ite (.withMu s _) (((PortsKept.withMu s _).trans (.raiseUp _ _)).trans (overrunIndication_portsKept _))
  have reverse : ∀ s, PortsKept s (reverseCount s) := fun s => .ite (.withMu s _) ((PortsKept.withMu s _).trans (back _))
  have moved : PortsKept s (s.withMu { s.mu with reference := inputs }) := .withMu s _
  exact .ite moved (.ite ((moved.trans (.withMu _ _)).trans (.raiseUp _ _)) (.ite (moved.trans (forward _)) (moved.trans (reverse _))))

end Sys2Proof.Machine
end

section
/-!
SUPPORT. Ports without work under closures, lost and moved entries, the failure of a port and the end of an event; and what a failure leaves
at the failed port.
-/

namespace Sys2Proof.Machine

/-! ### Closures (R118) -/

/-- A port whose queue lost some entries: an empty queue stays empty. -/
theorem ConsumerPort.Sound.without {c : ConsumerPort} (h : c.Sound) (id : Nat) (cls : DeliveryClass) : (c.without id cls).Sound := by
  cases cls with
  | essential =>
    refine ⟨h.link, fun down => ?_⟩
    obtain ⟨credit, essential, rest⟩ := h.quiet down
    exact ⟨credit, (congrArg (List.filter _) essential).trans List.filter_nil, rest⟩
  | sheddable =>
    refine ⟨h.link, fun down => ?_⟩
    obtain ⟨credit, essential, sheddable, rest⟩ := h.quiet down
    exact ⟨credit, essential, (congrArg (List.filter _) sheddable).trans List.filter_nil, rest⟩

theorem withdraw_portsKept (id : Nat) (cls : DeliveryClass) (s : State) (p : Port) : PortsKept s (withdraw id cls s p) :=
  .trans (t := s.setPort p ((s.port p).without id cls))
    (.setPort (fun up => by rw [ConsumerPort.without, setQueue_isUp]; exact up) fun h => h.without id cls) (releaseEntries_portsKept _ _)

theorem closeWindow_portsKept (id : Nat) (s : State) : PortsKept s (closeWindow id s) := by
  cases now : s.window id with
  | none => rw [closeWindow_free now]; exact .refl s
  | some w =>
    rw [closeWindow_eq now]
    exact (PortsKept.foldl (withdraw_portsKept id w.cls) allPorts s).trans (.of_agree (retireWindow_agree id w _))

/-! ### Lost and moved entries (R140, R146, R147) -/

theorem markLost_agree (id : Nat) (s : State) : State.Agree [.windows] s (markLost id s) := by
  unfold markLost
  split
  · exact .refl _ s
  · exact agree_ite (fun _ => agree_withWindows s _ (by decide)) fun _ => .refl _ s

theorem loseEntry_portsKept (p : Port) (s : State) (e : Entry) : PortsKept s (loseEntry p s e) :=
  ((releaseSlot_portsKept e.slot s).trans (.of_agree (markLost_agree e.window _))).trans (countDropped_portsKept p _)

theorem moveQueue_portsKept {p st : Port} {s : State} (cls : DeliveryClass) (up : (s.port st).isUp = true) :
    PortsKept s (moveQueue p st cls s) := by
  unfold moveQueue
  extract_lets q room emptied moved
  have leaves : PortsKept s emptied :=
    .setPort (fun up => by rw [setQueue_isUp]; exact up) fun h => h.setQueue_nil cls
  have joins : PortsKept emptied moved :=
    .setPort_up (leaves.up st up) (setQueue_linkUp _ _ _) (by rw [setQueue_isUp]; exact leaves.up st up)
  exact (leaves.trans joins).trans (.foldl (loseEntry_portsKept p) _ _)

/-- The standby that adopts is LIVE, and not the failed port (R144). -/
theorem adopter_some {p st : Port} {s : State} (adopts : adopter p s = some st) : st ≠ p ∧ (s.port st).isLive = true := by
  unfold adopter at adopts
  split at adopts
  · cases adopts
  · split at adopts
    next able => cases adopts; exact able
    · cases adopts

theorem failPort_portsKept (p : Port) (linkLoss : Bool) (s : State) : PortsKept s (failPort p linkLoss s) := by
  unfold failPort
  split
  next st adopts =>
    have up := isUp_of_isLive (adopter_some adopts).2
    have adopted : PortsKept s (adoptWindows p st s) := .withWindows s _
    have moved := adopted.trans (moveQueue_portsKept (p := p) .essential (adopted.up st up))
    exact (moved.trans (moveQueue_portsKept .sheddable (moved.up st up))).trans (.raiseAt _ _ _)
  · have emptied : PortsKept s (s.setPort p { s.port p with essential := [], sheddable := [] }) :=
      .setPort id fun h => (h.setQueue_nil .essential).setQueue_nil .sheddable
    have released := emptied.trans (.foldl (loseEntry_portsKept p) ((s.port p).essential ++ (s.port p).sheddable) _)
    exact .ite (released.trans (.foldl (fun s id => closeWindow_portsKept id s) _ _)) released

theorem abortStrip_portsKept (p : Port) (s : State) : PortsKept s (abortStrip p s) := by
  unfold abortStrip
  split
  next e _ _ =>
    have released := releaseSlot_portsKept e.slot s
    dsimp only
    split
    · exact released
    · exact .ite ((released.trans (.of_agree (markLost_agree e.window _))).trans (countDropped_portsKept p _))
        (released.trans (.of_agree (A := [.windows]) (closingStripEnd_agree e.window _ (by decide))))
  all_goals exact .refl s

/-! ### The end of an event -/

/-- The arbiter of a DOWN port chooses nothing (R135). -/
theorem arbitrate_down {s : State} {p : Port} (down : (s.port p).state = .down) : arbitrate s p = s :=
  (arbitrate_eq_self s p).mpr fun up => absurd down up

theorem arbitrate_portsKept (s : State) (p : Port) : PortsKept s (arbitrate s p) := by
  by_cases up : (s.port p).isUp = true
  · have shared := (arbitrate_agree s p).shared (by decide)
    have state : ∀ q, ((arbitrate s p).port q).isUp = (s.port q).isUp ∧ ((arbitrate s p).port q).linkUp = (s.port q).linkUp := fun q => by
      obtain ⟨_, _, _, _, _, _, _, port⟩ := arbitrate_kept s p q
      rw [port]
      exact ⟨rfl, rfl⟩
    refine ⟨fun q => by rw [(state q).1]; exact id, fun q h => ?_, by rw [shared], by rw [shared]⟩
    by_cases own : q = p
    · subst own
      exact h.of_up up (state q).2 ((state q).1.trans up)
    · rw [(arbitrate_spec s p).2.1 q own]
      exact h
  · rw [arbitrate_down (by_contra fun other => up ((isUp_iff _).mpr other))]
    exact .refl s

theorem judgeStall_sound (s : State) {c : ConsumerPort} (h : c.Sound) : (judgeStall s c).Sound := by
  cases state : c.isUp with
  | true =>
    obtain ⟨_, e⟩ := judgeStall_kept s c
    rw [e]
    exact h.of_up state rfl state
  | false =>
    have down : c.stalling = false := by
      rw [ConsumerPort.stalling]
      cases live : c.isLive with
      | true => rw [isUp_of_isLive live] at state; cases state
      | false => rfl
    rw [judgeStall, down]
    exact h.unstalled

theorem settle_portsKept (s : State) : PortsKept s (settle s) := by
  have arbitrated : PortsKept s (allPorts.foldl arbitrate s) := .foldl arbitrate_portsKept allPorts s
  refine arbitrated.trans ⟨fun p => ?_, fun p h => ?_, rfl, rfl⟩
  all_goals rw [settle_port]
  · obtain ⟨_, e⟩ := judgeStall_kept (allPorts.foldl arbitrate s) ((allPorts.foldl arbitrate s).port p)
    rw [e]
    exact id
  · exact judgeStall_sound _ h

/-! ### The failed port (R146 to R148) -/

/-- Of the ports, the counts of entries dropped and the notices alone may change. -/
def OnlyCounts (s t : State) : Prop := ∀ p, ∃ dropped pending notice, t.port p = { s.port p with
  dropped := dropped, pendingSet := pending, notice := notice }

theorem OnlyCounts.of_ports {s t : State} (h : t.ports = s.ports) : OnlyCounts s t := fun p =>
  ⟨_, _, _, congrArg (PerPort.get · p) h⟩

theorem OnlyCounts.trans {s t u : State} (h : OnlyCounts s t) (g : OnlyCounts t u) : OnlyCounts s u := fun p => by
  obtain ⟨_, _, _, first⟩ := h p
  obtain ⟨_, _, _, second⟩ := g p
  exact ⟨_, _, _, by rw [second, first]⟩

theorem OnlyRaises.counts {s t : State} (h : OnlyRaises s t) : OnlyCounts s t := fun p => by
  obtain ⟨_, _, e⟩ := h.kept p
  exact ⟨_, _, _, e⟩

theorem onlyCounts_foldl {α : Type} {f : State → α → State} (h : ∀ s x, OnlyCounts s (f s x)) (l : List α) :
    ∀ s, OnlyCounts s (l.foldl f s) := by
  induction l with
  | nil => exact fun s => .of_ports rfl
  | cons x l ih => exact fun s => (h s x).trans (ih _)

theorem countDropped_counts (p : Port) (s : State) : OnlyCounts s (countDropped p s) := fun q => by
  rw [countDropped, State.port_setPort]
  split
  next own => rw [own]; exact ⟨_, _, _, rfl⟩
  · exact ⟨_, _, _, rfl⟩

theorem loseEntry_counts (p : Port) (s : State) (e : Entry) : OnlyCounts s (loseEntry p s e) :=
  ((releaseSlot_raises e.slot s).counts.trans (.of_ports ((markLost_agree e.window _).ports (by decide)))).trans (countDropped_counts p _)

theorem abortStrip_counts (p : Port) (s : State) : OnlyCounts s (abortStrip p s) := by
  unfold abortStrip
  split
  next e _ _ =>
    have released := (releaseSlot_raises e.slot s).counts
    dsimp only
    split
    · exact released
    · split
      · exact (released.trans (.of_ports ((markLost_agree e.window _).ports (by decide)))).trans (countDropped_counts p _)
      · exact released.trans (.of_ports ((closingStripEnd_agree (A := [.windows]) e.window _ (by decide)).ports (by decide)))
  all_goals exact .of_ports rfl

theorem moveQueue_own {p st : Port} (other : st ≠ p) (cls : DeliveryClass) (s : State) : ∃ dropped pending notice,
    (moveQueue p st cls s).port p = { (s.port p).setQueue cls [] with dropped := dropped, pendingSet := pending, notice := notice } := by
  unfold moveQueue
  extract_lets q room emptied moved
  obtain ⟨dropped, pending, notice, port⟩ := onlyCounts_foldl (loseEntry_counts p) (q.drop room).reverse moved p
  have own : moved.port p = (s.port p).setQueue cls [] := by
    unfold moved emptied
    rw [State.port_setPort_ne _ _ other.symm, State.port_setPort_self]
  exact ⟨dropped, pending, notice, by rw [port, own]⟩

/-- A port has nothing queued, and its link sends and its stall timer runs as before. -/
structure LeftEmpty (p : Port) (s t : State) : Prop where
  essential : (t.port p).essential = []
  sheddable : (t.port p).sheddable = []
  outbound : (t.port p).outbound = (s.port p).outbound
  stall : (t.port p).stall = (s.port p).stall

theorem LeftEmpty.counts {p : Port} {s t u : State} (h : LeftEmpty p s t) (c : OnlyCounts t u) : LeftEmpty p s u := by
  obtain ⟨_, _, _, port⟩ := c p
  constructor
  all_goals rw [port]
  · exact h.essential
  · exact h.sheddable
  · exact h.outbound
  · exact h.stall

theorem LeftEmpty.closeWindow {p : Port} {s t : State} (h : LeftEmpty p s t) (id : Nat) : LeftEmpty p s (closeWindow id t) := by
  cases now : t.window id with
  | none => rw [closeWindow_free now]; exact h
  | some w =>
    rw [closeWindow_eq now]
    refine LeftEmpty.counts (t := withdrawAll id w.cls t) ?_ (.of_ports ((retireWindow_agree id w _).ports (by decide)))
    have queue : ∀ cls, ((withdrawAll id w.cls t).port p).queue cls = [] := fun cls => by
      rw [withdrawAll_queue]
      cases cls <;> cases w.cls <;> simp [ConsumerPort.queue, h.essential, h.sheddable]
    obtain ⟨_, _, port⟩ := withdrawAll_port id w.cls t p
    refine ⟨queue .essential, queue .sheddable, ?_, ?_⟩
    all_goals rw [port]
    · exact (without_outbound _ _ _).trans h.outbound
    · cases w.cls <;> exact h.stall

/-- The failure handling leaves the failed port nothing queued (R146, R147). -/
theorem failPort_leftEmpty (p : Port) (linkLoss : Bool) (s : State) : LeftEmpty p s (failPort p linkLoss s) := by
  unfold failPort
  split
  next st adopts =>
    have other := (adopter_some adopts).1
    obtain ⟨_, _, _, first⟩ := moveQueue_own other .essential (adoptWindows p st s)
    obtain ⟨_, _, _, second⟩ := moveQueue_own other .sheddable (moveQueue p st .essential (adoptWindows p st s))
    refine LeftEmpty.counts (t := moveQueue p st .sheddable (moveQueue p st .essential (adoptWindows p st s))) ?_
      (raiseWhere_raises _ _ _).counts
    constructor
    all_goals
      rw [second, first]
      rfl
  · unfold releaseAll
    dsimp only
    have emptied : LeftEmpty p s (s.setPort p { s.port p with essential := [], sheddable := [] }) := by
      constructor
      all_goals rw [State.port_setPort_self]
    have lost := emptied.counts (onlyCounts_foldl (loseEntry_counts p) ((s.port p).essential ++ (s.port p).sheddable) _)
    have closed : ∀ (ids : List Nat) {t : State}, LeftEmpty p s t → LeftEmpty p s (ids.foldl (fun s id => closeWindow id s) t) := by
      intro ids
      induction ids with
      | nil => exact fun h => h
      | cons id ids ih => exact fun h => ih (h.closeWindow id)
    split
    · exact closed _ lost
    · exact lost

/-- A port that has lost its link sends nothing, and its stall timer does not run (R148). -/
theorem cutLink_own (p : Port) (s : State) : ((cutLink p s).port p).outbound = none ∧ ((cutLink p s).port p).stall = none := by
  obtain ⟨_, _, _, port⟩ := abortStrip_counts p (s.setPort p { s.port p with linkUp := false, stall := none }) p
  rw [State.port_setPort_self] at port
  rw [cutLink, State.port_setPort_self, port]
  exact ⟨rfl, rfl⟩

end Sys2Proof.Machine
end

section
/-!
SUPPORT AND PROOF. Ports without work, the claim and a RESTART in progress (R131, R132, R148, R167, R168, R174 to R176) under the actions of
the requests, the frames, the timers, the links and the resets, and with them under every step.
-/

namespace Sys2Proof.Machine

/-! ### The actions of the requests -/

/-- The invariant, at a port that takes a request and therefore is up (R164). -/
structure Serves (p : Port) (s : State) : Prop where
  ok : PortsOk s
  up : (s.port p).isUp = true

theorem Serves.kept {p : Port} {s t : State} (h : Serves p s) (k : PortsKept s t) : Serves p t := ⟨h.ok.kept k, k.up p h.up⟩

/-- A request whose action keeps the ports for all its fields. -/
theorem ActsKeep.fields {p : Port} {α : Type} {read : List Byte → Option α} {act : α → State → State × Answer}
    (keeps : ∀ x s, PortsKept s (act x s).1) : ActsKeep (Serves p) (Machine.withFields read act) :=
  .withFields fun x s h => h.kept (keeps x s)

theorem setMotion_portsKept (r : MotionSettings) (s : State) : PortsKept s (setMotion r s).1 := by
  unfold setMotion
  split
  · exact .withMu s _
  · exact .refl s

theorem repeatRestart_portsKept (x : Unit) (s : State) : PortsKept s (repeatRestart x s).1 :=
  (PortsKept.withRu s _).trans (goLock_portsKept _ _)

theorem setRepeat_portsKept (r : RepeatSettings) (s : State) : PortsKept s (setRepeat r s).1 := by
  unfold setRepeat
  split
  · exact .withRu s _
  · exact .refl s

theorem setLane_portsKept (f : LaneFields) (s : State) : PortsKept s (setLane f s).1 := by
  unfold setLane
  split
  · exact .refl s
  next k _ =>
    split
    · exact PortsKept.updateLane k (fun l => l.withItems f) s
    · exact .refl s

theorem pageClear_portsKept (x : Unit) (s : State) : PortsKept s (pageClear x s).1 := .withCb s _

theorem pageSeek_portsKept (e : Nat) (s : State) : PortsKept s (pageSeek e s).1 := by
  unfold pageSeek
  split
  · exact .withCb s _
  · exact .refl s

theorem pageFill_portsKept (es : List Correction) (s : State) : PortsKept s (pageFill es s).1 := by
  unfold pageFill
  split
  · exact .withCb s _
  · exact .refl s

theorem pageCommit_portsKept (p : Port) (x : Nat × Nat) (s : State) : PortsKept s (pageCommit p x s).1 := by
  unfold pageCommit
  split
  · exact .refl s
  next k _ =>
    have pends : PortsKept s (s.withCb { s.cb with commit := some { lane := k, page := x.2, port := p } }) := .withCb s _
    split
    · dsimp only
      split
      · exact pends
      · exact pends.trans (completeCommit_portsKept k _)
      · exact pends.trans (completeCommit_portsKept k _)
    · exact .refl s

theorem levelStart_portsKept (p : Port) (f : LevelFields) (s : State) : PortsKept s (levelStart p f s).1 := by
  unfold levelStart
  split
  · exact .refl s
  · split
    · exact .ite (.withLe s _) (endSearch_portsKept _ _ _ s)
    · exact .refl s

theorem levelAbort_portsKept (x : Unit) (s : State) : PortsKept s (levelAbort x s).1 := by
  unfold levelAbort
  split
  · exact endSearch_portsKept _ _ _ s
  · exact .refl s
  · exact .refl s

/-- SET_STORE names a standby and a stall timeout; the claim is not among its fields (R149). -/
theorem setStore_portsKept (f : StoreFields) (s : State) : PortsKept s (setStore f s).1 := by
  unfold setStore
  split
  · have stored : PortsKept s ((s.withShared { s.shared with stallTimeout := f.stallTimeout, standby := f.standby }).withBsc
        { s.bsc with reserve := f.reserve }) := .of_ports rfl rfl rfl
    exact .ite (stored.trans (judgePressure_portsKept _)) stored
  · exact .refl s

theorem windowOpen_portsKept (p : Port) (f : WindowFields) (s : State) : PortsKept s (windowOpen p f s).1 := by
  unfold windowOpen
  split
  · split
    · exact .refl s
    · exact .withWindows s _
  · exact .refl s

theorem windowClose_portsKept (p : Port) (id : Nat) (s : State) : PortsKept s (windowClose p id s).1 := by
  unfold windowClose
  split
  · exact .refl s
  · exact closeWindow_portsKept id s

theorem windowReturn_portsKept (p : Port) (id : Nat) (s : State) : PortsKept s (windowReturn p id s).1 := by
  unfold windowReturn
  split
  · exact .refl s
  · split
    · exact .withWindows s _
    · exact .refl s

theorem placeMarker_portsKept (p : Port) (o : Output) (t : Line) (width : Nat) (s : State) :
    PortsKept s (placeMarker p o t width s).1 := by
  unfold placeMarker
  dsimp only
  split
  · exact .withMku s _
  · split
    · exact .withMku s _
    · exact .refl s

theorem markOut_portsKept (p : Port) (f : MarkFields) (s : State) : PortsKept s (markOut p f s).1 := by
  have guarded : ∀ (c : Prop) [Decidable c] (code : ResponseCode) (r : State × Answer), PortsKept s r.1 →
      PortsKept s (if c then refuse code s else r).1 := by
    intro c _ code r kept
    split
    · exact .refl s
    · exact kept
  unfold markOut
  split
  · split
    · exact .refl s
    · exact guarded _ _ _ (guarded _ _ _ (guarded _ _ _ (placeMarker_portsKept _ _ _ _ s)))
  · exact .refl s

theorem setMarkerOut_portsKept (f : MarkerFields) (s : State) : PortsKept s (setMarkerOut f s).1 := by
  unfold setMarkerOut
  split
  · exact .withMku s _
  · exact .refl s

/-! ### Requests that change their own port -/

theorem Serves.grantCredit {p : Port} (n : Nat) (s : State) (h : Serves p s) : Serves p (grantCredit p n s).1 := by
  unfold Machine.grantCredit
  split
  · exact h.kept (.setPort_up h.up rfl rfl)
  · exact h

theorem Serves.setNotices {p : Port} (x : Bool × List NoticeKind) (s : State) (h : Serves p s) : Serves p (setNotices p x s).1 := by
  unfold Machine.setNotices
  split
  · exact h.kept (.setPort_up h.up rfl h.up)
  · exact h

theorem Serves.takeStatus {p : Port} (x : Unit) (s : State) (h : Serves p s) : Serves p (takeStatus p x s).1 :=
  h.kept (.setPort_up h.up rfl h.up)

/-! ### The claim and the RESTART (R167, R168, R174, R175) -/

/-- Another claim record: its holder is up, and a RESTART in progress the holder's. -/
theorem PortsOk.withShared {s : State} (h : PortsOk s) {x : SharedRecord} (holder : ∀ p, x.holder = some p → (s.port p).isUp = true)
    (restart : ∀ p, x.restart = some p → x.holder = some p) : PortsOk (s.withShared x) :=
  portsOk_of_sound h.sound holder restart

/-- The claim given up by its holder, from which no RESTART is in progress (R168, R174). -/
theorem PortsOk.claimLeft {s : State} (h : PortsOk s) {p : Port} (own : s.shared.holder = some p) (idle : s.shared.restart ≠ some p) :
    PortsOk (raiseOthers p .claim (s.withShared { s.shared with holder := none })) :=
  (h.withShared (fun _ taken => by cases taken) fun q restart => by
    cases own.symm.trans (h.restart q restart)
    exact absurd restart idle).kept (.raiseOthers _ _ _)

/-- A free claim is taken by a port that is up, and no RESTART is in progress without a holder (R167). -/
theorem Serves.takeClaim {p : Port} (x : Unit) (s : State) (h : Serves p s) : Serves p (takeClaim p x s).1 := by
  unfold Machine.takeClaim
  split
  next free =>
    have ok : PortsOk (s.withShared { s.shared with holder := some p }) := h.ok.withShared
      (fun q own => by cases own; exact h.up) fun q restart => by cases free.symm.trans (h.ok.restart q restart)
    exact Serves.kept ⟨ok, h.up⟩ (.raiseOthers _ _ _)
  · split <;> exact h

/-- A port from which a RESTART is in progress takes no request, so that no RELEASE leaves the RESTART without the claim (R164, R168). -/
theorem Serves.releaseClaim {p : Port} (x : Unit) (s : State) (h : Serves p s) (idle : s.shared.restart ≠ some p) :
    Serves p (releaseClaim p x s).1 := by
  unfold Machine.releaseClaim
  split
  next own => exact ⟨h.ok.claimLeft own idle, (PortsKept.raiseOthers p .claim (s.withShared _)).up p h.up⟩
  · exact h

/-- RESTART is taken from the claim holder alone (R165, R175). -/
theorem Serves.restart {p : Port} (f : RequestFrame) (s : State) (h : Serves p s) :
    Serves p (asHolder p (withFields readNothing (beginRestart p)) f s).1 := by
  unfold asHolder
  split
  next own =>
    unfold withFields
    split
    · exact h
    · exact ⟨h.ok.withShared h.ok.holder fun q restart => by cases restart; exact own, h.up⟩
  · exact h

/-! ### The taking of a request (R164, R165) -/

theorem respond_portsKept {p : Port} {s : State} (up : (s.port p).isUp = true) (f : RequestFrame) (a : Answer) :
    PortsKept s (respond p f a s) := .setPort_up up rfl up

/-- A port takes requests while it is up and no RESTART is in progress from it (R164). -/
theorem takesRequests_iff (s : State) (p : Port) : s.takesRequests p = true ↔
    (s.port p).isUp = true ∧ (s.port p).responses.length < Config.takeLimit ∧ s.shared.restart ≠ some p := by
  rw [State.takesRequests, Bool.and_eq_true, Bool.and_eq_true, decide_eq_true_iff, decide_eq_true_iff, and_assoc]

theorem PortsOk.takeRequest {s t : State} {p : Port} {kind : Option RequestKind} {act : RequestFrame → State → State × Answer}
    (h : PortsOk s) (serves : ∀ f u, Serves p u → u.shared.restart ≠ some p → Serves p (act f u).1)
    (e : takeRequest p kind act s = .next t) : PortsOk t := by
  unfold Machine.takeRequest at e
  split at e
  · cases e; exact h
  next f rest _ =>
    split at e
    next takes =>
      cases e
      obtain ⟨up, _, idle⟩ := (takesRequests_iff s p).mp takes.2
      have left : PortsKept s (s.setPort p { s.port p with requests := rest }) := .setPort_up up rfl up
      obtain ⟨ok, up⟩ := serves f _ ⟨h.kept left, left.up p up⟩ idle
      exact (ok.kept (respond_portsKept up f _)).kept (settle_portsKept _)
    · cases e; exact h

/-- The taking of a request whose action keeps the invariant whatever RESTART is in progress. -/
theorem PortsOk.serve {s t : State} {p : Port} {kind : Option RequestKind} {act : RequestFrame → State → State × Answer}
    (h : PortsOk s) (keeps : ActsKeep (Serves p) act) (e : Machine.takeRequest p kind act s = .next t) : PortsOk t :=
  h.takeRequest (fun f u serves _ => keeps f u serves) e

theorem countRequestError_portsKept (p : Port) (s : State) : PortsKept s (countRequestError p s) := .setPort id fun h => ⟨h.link, h.quiet⟩

theorem acceptFrame_portsKept {p : Port} {s : State} (up : (s.port p).isUp = true) (f : RequestFrame) :
    PortsKept s (acceptFrame p f s) :=
  .ite (.setPort_up up rfl up) (.ite (respond_portsKept up f _) (countRequestError_portsKept p s))

/-! ### Events that keep the ports -/

theorem PortsOk.settled {s u t : State} (h : PortsOk s) (k : PortsKept s u)
    (e : (Host.Outcome.next (settle u) : Host.Outcome State Fault Refusal) = .next t) : PortsOk t := by
  cases e
  exact h.kept (k.trans (settle_portsKept u))

theorem PortsOk.execRequestArrival {s t : State} {p : Port} {bytes : List Byte} (h : PortsOk s)
    (e : execRequestArrival p bytes s = .next t) : PortsOk t := by
  unfold Machine.execRequestArrival at e
  split at e
  next up =>
    split at e
    · exact h.settled (countRequestError_portsKept p s) e
    · exact h.settled (acceptFrame_portsKept up _) e
  · cases e; exact h

theorem PortsOk.execStopTimerExpiry {s t : State} (h : PortsOk s) (e : execStopTimerExpiry s = .next t) : PortsOk t := by
  unfold Machine.execStopTimerExpiry at e
  split at e
  · cases e; exact h
  next due _ =>
    have stopped : PortsKept s ((s.clockAt due).withMu { s.mu with motion := .stopped, stopTimer := none }) := .of_ports rfl rfl rfl
    exact h.settled ((stopped.trans (stopSeal_portsKept _)).trans (.raiseUp _ _)) e

theorem PortsOk.execSteeringLinkUp {s t : State} {p : Port} (h : PortsOk s) (e : execSteeringLinkUp p s = .next t) : PortsOk t := by
  unfold Machine.execSteeringLinkUp at e
  dsimp only at e
  split at e
  · cases e; exact h.kept (.setPort (fun _ => rfl) fun _ => ⟨nofun, nofun⟩)
  all_goals cases e; exact h

theorem PortsOk.execStripCompletion {s t : State} {p : Port} (h : PortsOk s) (e : execStripCompletion p s = .next t) : PortsOk t := by
  unfold Machine.execStripCompletion at e
  split at e
  next x _ _ =>
    have idle : PortsKept s (s.setPort p { s.port p with outbound := none }) := .setPort id .idle
    exact h.settled ((idle.trans (releaseSlot_portsKept x.slot _)).trans
      (.of_agree (A := [.windows]) (closingStripEnd_agree x.window _ (by decide)))) e
  all_goals cases e; exact h

theorem PortsOk.execStallTimerExpiry {s t : State} {p : Port} (h : PortsOk s) (e : execStallTimerExpiry p s = .next t) : PortsOk t := by
  unfold Machine.execStallTimerExpiry at e
  split at e
  next due live _ =>
    have clocked : PortsKept s (s.clockAt due) := .of_ports rfl rfl rfl
    have up : (s.port p).isUp = true := (isUp_iff _).mpr (by rw [live]; nofun)
    have stalled : PortsKept (s.clockAt due) ((s.clockAt due).setPort p { s.port p with state := .stalled, stall := none }) :=
      .setPort_up up rfl rfl
    exact h.settled (((clocked.trans stalled).trans (.raiseAt _ _ _)).trans (failPort_portsKept p false _)) e
  · cases e; exact h

/-! ### Resets and link losses -/

theorem portsOk_powerOnReset (inputs : EncInputs) (s : State) : PortsOk (powerOnReset inputs s) := by
  refine portsOk_of_sound (fun p => ?_) nofun nofun
  rw [show (powerOnReset inputs s).port p = ConsumerPort.initial .down (s.port p).linkUp from PerPort.get_map _ s.ports p]
  exact .initial fun _ => rfl

theorem portsOk_restartReset (s : State) : PortsOk (restartReset s) := by
  refine portsOk_of_sound (fun p => ?_) nofun nofun
  rw [restartReset_port]
  exact .initial fun down => by rw [down]; rfl

theorem PortsOk.execFrameCompletion {s t : State} {p : Port} (h : PortsOk s) (e : execFrameCompletion p s = .next t) : PortsOk t := by
  have idle : PortsKept s (s.setPort p { s.port p with outbound := none }) := .setPort id .idle
  unfold Machine.execFrameCompletion at e
  split at e
  · split at e
    · cases e; exact portsOk_restartReset s
    · exact h.settled idle e
  · exact h.settled idle e
  all_goals cases e; exact h

/-- A link loss after the failure handling: the port is DOWN and holds nothing, the other ports are sound, and the claim is as before. -/
theorem PortsOk.downPort {s : State} (h : PortsOk s) (p : Port) : let failed := failPort p true (cutLink p s)
    let t := failed.setPort p (downPort (failed.port p))
    (∀ q, (t.port q).Sound) ∧ (∀ q, q ≠ p → (s.port q).isUp = true → (t.port q).isUp = true)
      ∧ t.shared.holder = s.shared.holder ∧ t.shared.restart = s.shared.restart := by
  intro failed t
  set unplugged := s.setPort p { s.port p with linkUp := false, stall := none }
  have aborted := abortStrip_portsKept p unplugged
  have cut : PortsKept unplugged (cutLink p s) := by
    refine aborted.trans (.setPort id fun h => ⟨h.link, fun down => ?_⟩)
    obtain ⟨credit, essential, sheddable, _, stall, requests, _, _, rest⟩ := h.quiet down
    exact ⟨credit, essential, sheddable, rfl, stall, requests, rfl, rfl, rest⟩
  have kept : PortsKept unplugged failed := cut.trans (failPort_portsKept p true _)
  have port : ∀ q, q ≠ p → unplugged.port q = s.port q ∧ t.port q = failed.port q := fun q other =>
    ⟨State.port_setPort_ne _ _ other, State.port_setPort_ne _ _ other⟩
  refine ⟨fun q => ?_, fun q other up => ?_, kept.holder, kept.restart⟩
  · by_cases own : q = p
    · subst own
      obtain ⟨outbound, stall⟩ := cutLink_own q s
      have left := failPort_leftEmpty q true (cutLink q s)
      rw [State.port_setPort_self]
      exact ⟨fun _ => rfl, fun _ => ⟨rfl, left.essential, left.sheddable, left.outbound.trans outbound, left.stall.trans stall, rfl, rfl,
        rfl, rfl, rfl⟩⟩
    · obtain ⟨before, after⟩ := port q own
      rw [after]
      exact kept.sound q (by rw [before]; exact h.sound q)
  · obtain ⟨before, after⟩ := port q other
    rw [after]
    exact kept.up q (by rw [before]; exact up)

/-- The port that lost its link gives up the claim, from which no RESTART is in progress (R174). -/
theorem PortsOk.dropClaim {s t : State} (h : PortsOk s) {p : Port} (sound : ∀ q, (t.port q).Sound)
    (up : ∀ q, q ≠ p → (s.port q).isUp = true → (t.port q).isUp = true) (holder : t.shared.holder = s.shared.holder)
    (restart : t.shared.restart = s.shared.restart) (idle : s.shared.restart ≠ some p) : PortsOk (dropClaim p t) := by
  unfold Machine.dropClaim
  split
  next own =>
    refine PortsOk.kept (s := t.withShared { t.shared with holder := none }) (portsOk_of_sound sound nofun fun q progress => ?_)
      (.raiseOthers _ _ _)
    have progress := restart.symm.trans progress
    cases (holder.symm.trans own).symm.trans (h.restart q progress)
    exact absurd progress idle
  next other =>
    refine portsOk_of_sound sound (fun q own => up q (fun same => other (same ▸ own)) (h.holder q (holder.symm.trans own)))
      fun q progress => holder.trans (h.restart q (restart.symm.trans progress))

theorem PortsOk.execSteeringLinkLoss {s t : State} {p : Port} (h : PortsOk s) (e : execSteeringLinkLoss p s = .next t) : PortsOk t := by
  obtain ⟨sound, up, holder, restart⟩ := h.downPort p
  unfold Machine.execSteeringLinkLoss at e
  split at e
  · cases e; exact h
  all_goals
    split at e
    · cases e; exact portsOk_restartReset _
    next idle => cases e; exact (h.dropClaim sound up holder restart idle).kept (settle_portsKept _)

/-! ### Every command -/

/-- Every command keeps the invariant of the ports and the claim. One whose frame spares the ports and the claim leaves both as they
are. -/
theorem PortsOk.exec {c : Instr} {s t : State} (h : PortsOk s) (e : exec c s = .next t) : PortsOk t := by
  by_cases spared : Part.ports ∉ touched c ∧ Part.shared ∉ touched c
  · obtain ⟨u, run, agree⟩ := commandFrames c s
    cases run.symm.trans e
    exact h.kept (.of_agree agree spared.1 spared.2)
  · cases c with
    | powerOn inputs => cases e; exact portsOk_powerOnReset inputs s
    | encoderCount inputs => exact h.settled (encoderChange_portsKept inputs s) e
    | stopTimerExpiry => exact h.execStopTimerExpiry e
    | setMotion p => exact h.serve (.asHolder p (.fields setMotion_portsKept)) e
    | markEdge edge => exact h.settled (markTransition_portsKept edge s) e
    | repeatRestart p => exact h.serve (.asHolder p (.fields repeatRestart_portsKept)) e
    | setRepeat p => exact h.serve (.asHolder p (.fields setRepeat_portsKept)) e
    | snapshot p | log p | laneInfo p | tableRead p | levelResults p | windowInfo p => exact h.serve (.inform _) e
    | setLane p => exact h.serve (.asHolder p (.fields setLane_portsKept)) e
    | lineArrival k frame => exact h.settled (arriveLine_portsKept k frame s) e
    | laneLinkLoss k => exact h.settled (loseLaneLink_portsKept k s) e
    | laneLinkReturn k => exact h.settled (returnLaneLink_portsKept k s) e
    | pageClear p => exact h.serve (.asHolder p (.unlessCommit (.fields pageClear_portsKept))) e
    | pageSeek p => exact h.serve (.asHolder p (.unlessCommit (.fields pageSeek_portsKept))) e
    | pageFill p => exact h.serve (.asHolder p (.unlessCommit (.fields pageFill_portsKept))) e
    | pageCommit p => exact h.serve (.asHolder p (.unlessCommit (.fields (pageCommit_portsKept p)))) e
    | levelStart p => exact h.serve (.asHolder p (.unlessSearching (.fields (levelStart_portsKept p)))) e
    | spanEnd => exact h.settled (levelSpan_portsKept _ s) e
    | levelAbort p => exact h.serve (.asHolder p (.fields levelAbort_portsKept)) e
    | setStore p => exact h.serve (.asHolder p (.fields setStore_portsKept)) e
    | windowOpen p => exact h.serve (.ifLive fun x s _ serves => serves.kept (windowOpen_portsKept p x s)) e
    | windowClose p => exact h.serve (.fields (windowClose_portsKept p)) e
    | windowReturn p => exact h.serve (.fields (windowReturn_portsKept p)) e
    | steeringLinkUp p => exact h.execSteeringLinkUp e
    | grant p => exact h.serve (.withFields Serves.grantCredit) e
    | frameCompletion p => exact h.execFrameCompletion e
    | stripCompletion p => exact h.execStripCompletion e
    | stallTimerExpiry p => exact h.execStallTimerExpiry e
    | steeringLinkLoss p => exact h.execSteeringLinkLoss e
    | requestArrival p bytes => exact h.execRequestArrival e
    | badKind p => exact h.serve (act := fun _ => refuse .badKind) (fun _ _ => id) e
    | claim p => exact h.serve (.withFields Serves.takeClaim) e
    | release p =>
      refine h.takeRequest (fun f u serves idle => ?_) e
      unfold withFields
      split
      · exact serves
      · exact serves.releaseClaim _ u idle
    | notices p => exact h.serve (.withFields Serves.setNotices) e
    | status p => exact h.serve (.withFields Serves.takeStatus) e
    | restart p => exact h.serve Serves.restart e
    | markOut p => exact h.serve (.ifLive fun x s _ serves => serves.kept (markOut_portsKept p x s)) e
    | setMarkerOut p => exact h.serve (.asHolder p (.fields setMarkerOut_portsKept)) e
    | gateReopen | speedGateEnd | chainExpiry | pulseEnd _ => exact absurd (by simp [touched]) spared

/-- Settles O11: no event but a link loss takes a port DOWN, and that loss empties the port and takes the claim from it; a RESTART in
progress keeps its port from giving the claim up. -/
theorem stepKeepsPorts : Obligations.StepKeepsPorts := by
  unfold Obligations.StepKeepsPorts
  intro s t h e
  unfold Machine.step at e
  split at e
  · cases e; exact h.kept (.of_ports rfl rfl rfl)
  next c rest _ => exact (h.kept (t := s.withPending rest) (.of_ports rfl rfl rfl)).exec e

end Sys2Proof.Machine
end

section
/-!
SUPPORT AND PROOF. The marker outputs (9.5): SET_MARKER_OUT (R160), the firing of an entry (R157 to R159), a due line at the Marker Unit
(R157), and the end of a pulse (R158); with them the taking of a request that changes the Marker Unit alone.
-/

namespace Sys2Proof.Machine

/-! ### A request that changes the Marker Unit alone -/

/-- A request in a settled state whose action replaces the Marker Unit: no arbiter looks at it, so the request is answered and nothing
else happens (R165). -/
theorem takeRequest_withMku {s : State} {p : Port} {f : RequestFrame} {rest : List RequestFrame} {k : Option RequestKind}
    {act : RequestFrame → State → State × Answer} {a : Answer} {m : MarkerUnit} (h : Settled s) (taken : Taken s p f rest)
    (kind : f.requestKind = k) (does : act f (requestLeft p rest s) = ((requestLeft p rest s).withMku m, a)) :
    takeRequest p k act s = .next (answered p rest (a.response f) (s.withMku m)) := by
  rw [takeRequest_settled h taken kind does rfl rfl (State.port_setPort_self s p _) fun q ne => State.port_setPort_ne s _ ne]
  exact congrArg Host.Outcome.next (State.setPort_setPort (s.withMku m) p _ _)

/-! ### SET_MARKER_OUT (R160) -/

/-- A SET_MARKER_OUT record is read back from its field bytes (11.3). -/
theorem readMarker_fields {f : MarkerFields} (h : (Request.setMarkerOut f).fits) :
    readMarker (Request.setMarkerOut f).fields = some f := by
  obtain ⟨_, _, _, _, _, outputs, modes, polarities, _⟩ := codes_lt
  have read : readMarker (Request.setMarkerOut f).fields =
      match outputOfCode (BitVec.ofNat 8 (codeOfOutput f.output)).toNat, markerModeOfCode (BitVec.ofNat 8 (codeOfMarkerMode f.mode)).toNat,
        polarityOfCode (BitVec.ofNat 8 (codeOfPolarity f.polarity)).toNat with
      | some o, some mode, some pol => some { output := o, distance := leValue (leBytes 4 f.distance), mode := mode, polarity := pol }
      | _, _, _ => none := rfl
  rw [read, byte_toNat (outputs _), byte_toNat (modes _), byte_toNat (polarities _), outputOfCode_codeOfOutput,
    markerModeOfCode_codeOfMarkerMode, polarityOfCode_codeOfPolarity, leValue_leBytes h]

/-- A SET_MARKER_OUT from the claim holder, in range and out of range. -/
theorem exec_setMarkerOut {s : State} {p : Port} {tag : Byte} {rest : List RequestFrame} {f : MarkerFields} (settled : Settled s)
    (taken : Taken s p ((Request.setMarkerOut f).frame tag) rest) (fits : (Request.setMarkerOut f).fits)
    (holder : s.shared.holder = some p) :
    exec (.setMarkerOut p) s = .next (
      if f.distance ≤ 1000000 then
        answered p rest (responseTo (.setMarkerOut f) tag { code := .done }) (s.withMku { s.mku with
          outputs := s.mku.outputs.set f.output { s.mku.outputs.get f.output with
            distance := f.distance, pendingMode := some (f.mode, f.polarity) } })
      else answered p rest (responseTo (.setMarkerOut f) tag { code := .range }) s) := by
  have kind : ((Request.setMarkerOut f).frame tag).requestKind = some .setMarkerOut := Request.frame_kind _ tag
  have read : asHolder p (withFields readMarker setMarkerOut) ((Request.setMarkerOut f).frame tag) (requestLeft p rest s)
      = setMarkerOut f (requestLeft p rest s) := by
    rw [asHolder_holder (by exact holder), withFields_read (readMarker_fields fits)]
  show takeRequest p (some .setMarkerOut) (asHolder p (withFields readMarker setMarkerOut)) s = _
  split
  next inRange => exact takeRequest_withMku settled taken kind (read.trans (if_pos (decide_eq_true inRange)))
  next outside => exact takeRequest_answered settled taken kind (read.trans (if_neg (by simpa [MarkerFields.inRange] using outside)))

/-! ### An entry fired (R157 to R159) -/

/-- The output after a firing: the pending pair in force, then the pulse begun or prolonged, or the state inverted. -/
theorem MarkerOutput.fire_eq (o : MarkerOutput) (now width : Nat) :
    o.fire now width = (
      let m := o.pendingMode.getD (o.mode, o.polarity)
      { distance := o.distance, mode := m.1, polarity := m.2, pendingMode := none
        active := match m.1 with
          | .pulse => true
          | .toggle => !o.active
        pulseEnd := match m.1, o.pulseEnd with
          | .pulse, none => some (now + 100 * width)
          | .pulse, some due => some (max due (now + 100 * width))
          | .toggle, _ => none }) := by
  have applied : o.applyPending = (
      let m := o.pendingMode.getD (o.mode, o.polarity)
      { o with mode := m.1, polarity := m.2, pendingMode := none }) := by
    obtain ⟨distance, mode, polarity, _ | m, active, pulseEnd⟩ := o <;> rfl
  have due : now + width * Config.unitsPerUs = now + 100 * width := by rw [Nat.mul_comm]; rfl
  unfold MarkerOutput.fire
  rw [applied]
  dsimp only
  cases (o.pendingMode.getD (o.mode, o.polarity)).1 with
  | pulse =>
    simp only [MarkerOutput.pulse, due]
    cases o.pulseEnd <;> rfl
  | toggle => rfl

/-- A firing counts once at each requester of the entry. -/
theorem fireEntry_fired (s : State) (e : MarkerEntry) (q : Port) :
    (fireEntry s e).mku.fired.get q = s.mku.fired.get q + if e.requesters.get q then 1 else 0 := by
  rw [fireEntry_mku, PerPort.get_map]
  split
  · rfl
  · exact (BitVec.add_zero _).symm

theorem fireEntry_raised (s : State) (e : MarkerEntry) :
    Raised (fun q => e.requesters.get q && (s.port q).isUp) .marker s (fireEntry s e) :=
  raiseWhere_pendingSet _ _ _

theorem fireEntry_agree (s : State) (e : MarkerEntry) : State.Agree [.ports, .mku] s (fireEntry s e) :=
  (agree_withMku s _ (by decide)).trans (raiseWhere_agree _ _ _ (by decide))

/-! ### A due line at the Marker Unit (R157) -/

/-- Entries fired count at their requesters as entries given up do in the cancelled counters (R157, R162). -/
theorem foldl_fireEntry_fired (es : List MarkerEntry) : ∀ s : State, (es.foldl fireEntry s).mku.fired = cancelMarkers es s.mku.fired := by
  induction es with
  | nil => exact fun _ => rfl
  | cons e es ih => exact fun s => ih (fireEntry s e)

theorem markerDueLine_fired (w : Line) (s : State) (q : Port) : (markerDueLine w s).mku.fired.get q
    = s.mku.fired.get q + BitVec.ofNat 32 (s.mku.queue.countP fun e => decide (e.target = w) && e.requesters.get q) := by
  rw [markerDueLine, foldl_fireEntry_fired, cancelMarkers_get, List.countP_filter]
  simp only [Bool.and_comm]
  rfl

/-- A line that is no entry's target changes nothing. -/
theorem markerDueLine_quiet {w : Line} {s : State} (notDue : ∀ e ∈ s.mku.queue, e.target ≠ w) : markerDueLine w s = s := by
  have due : s.mku.queue.filter (fun e => decide (e.target = w)) = [] :=
    List.filter_eq_nil_iff.mpr fun e mem => by simpa using notDue e mem
  have kept : s.mku.queue.filter (fun e => decide (e.target ≠ w)) = s.mku.queue :=
    List.filter_eq_self.mpr fun e mem => decide_eq_true (notDue e mem)
  rw [markerDueLine, due, kept]
  rfl

/-! ### The end of a pulse (R158) -/

theorem exec_pulseEnd {s : State} {o : Output} {due : Nat} (runs : (s.mku.outputs.get o).pulseEnd = some due) :
    exec (.pulseEnd o) s = .next ((s.withNow (max s.now due)).withMku { s.mku with
      outputs := s.mku.outputs.set o { s.mku.outputs.get o with active := false, pulseEnd := none } }) := by
  show execPulseEnd o s = _
  unfold execPulseEnd
  dsimp only
  rw [runs]
  rfl

/-- Settles O57: the request, the firing of one entry, the firings of a due line by induction over the entries due, and the pulse end. -/
theorem markerOutputs : Obligations.MarkerOutputs := by
  unfold Obligations.MarkerOutputs
  refine ⟨fun s p tag rest f => exec_setMarkerOut, fun s e => ?_, fun s w => ?_, fun s o due => exec_pulseEnd⟩
  · exact ⟨congrArg (s.mku.outputs.set e.output) (MarkerOutput.fire_eq _ _ _), fireEntry_fired s e, rfl, rfl, fireEntry_raised s e,
      fireEntry_agree s e⟩
  · exact ⟨rfl, markerDueLine_queue w s, markerDueLine_fired w s, markerDueLine_quiet, markerDueLine_agree w s (by decide) (by decide)⟩

end Sys2Proof.Machine
end

section
/-!
SUPPORT AND PROOF. MARK_OUT (R153 to R156): the log queried by repeat number, the checks in their order, and the placing of a marker.
-/

namespace Sys2Proof.Machine

/-! ### The log by repeat number (R22, R40) -/

/-- The repeat numbers of a chained log count up from the oldest entry's. -/
theorem rn_of_logChained {es : List LogEntry} {last : LogEntry} (h : logChained es last) :
    ∀ {i : Nat} {e : LogEntry}, (es ++ [last])[i]? = some e → e.rn = (es.headD last).rn + BitVec.ofNat 32 i := by
  induction es with
  | nil =>
    intro i e at_i
    cases i with
    | zero => cases at_i; exact (BitVec.add_zero _).symm
    | succ i => cases at_i
  | cons f es ih =>
    obtain ⟨⟨_, next⟩, rest⟩ := (logChained_cons f es last).mp h
    intro i e at_i
    cases i with
    | zero => cases at_i; exact (BitVec.add_zero _).symm
    | succ i =>
      rw [ih rest at_i, next, BitVec.ofNat_add, BitVec.add_assoc, BitVec.add_comm 1]
      rfl

/-- A query by repeat number finds the one entry of that number, and nothing where the log has none (R40). -/
theorem LogOk.query_iff {s : State} (h : LogOk s) (rn : Line) (e : LogEntry) :
    s.ru.query rn = some e ↔ e ∈ s.ru.entries ∧ e.rn = rn := by
  obtain ⟨size, _, chained⟩ := h
  have numbered : ∀ {i : Nat} {e : LogEntry}, s.ru.entries[i]? = some e → e.rn = s.ru.oldest.rn + BitVec.ofNat 32 i :=
    rn_of_logChained chained
  constructor
  · intro found
    refine ⟨List.mem_of_getElem? found, (numbered found).trans ?_⟩
    rw [BitVec.ofNat_toNat, BitVec.setWidth_eq, BitVec.add_comm, BitVec.sub_add_cancel]
  · rintro ⟨mem, rfl⟩
    obtain ⟨i, at_i⟩ := List.mem_iff_getElem?.mp mem
    have small : i < 2 ^ 32 := by
      obtain ⟨within, _⟩ := List.getElem?_eq_some_iff.mp at_i
      simp only [Config.logCapacity] at size
      omega
    have place : (e.rn - s.ru.oldest.rn).toNat = i := by
      rw [numbered at_i, BitVec.add_comm, BitVec.add_sub_cancel, BitVec.toNat_ofNat, Nat.mod_eq_of_lt small]
    rw [RepeatUnit.query, place, at_i]

/-! ### The checks of MARK_OUT (R153 to R155) -/

/-- A MARK_OUT record is read back from its field bytes (11.3). -/
theorem readMark_fields {f : MarkFields} (h : (Request.markOut f).fits) : readMark (Request.markOut f).fields = some f := by
  obtain ⟨irl, width⟩ := h
  obtain ⟨_, _, _, _, _, outputs, _⟩ := codes_lt
  have read : readMark (Request.markOut f).fields = (outputOfCode (BitVec.ofNat 8 (codeOfOutput f.output)).toNat).map fun o =>
      { output := o, rn := BitVec.ofNat 32 (leValue (leBytes 4 f.rn.toNat)), irl := leValue (leBytes 4 f.irl)
        width := leValue (leBytes 4 f.width) } := rfl
  rw [read, byte_toNat (outputs _), outputOfCode_codeOfOutput, leValue_leBytes f.rn.isLt, leValue_leBytes irl, leValue_leBytes width,
    BitVec.ofNat_toNat, BitVec.setWidth_eq]
  rfl

/-- An in-repeat line that is not a line of a logged repeat: before its first, or past the end of a closed one (R154). -/
def MarkFields.Outside (f : MarkFields) (e : LogEntry) : Prop :=
  f.irl < e.firstIrl ∨ ∃ n, e.length = some n ∧ e.firstIrl + n ≤ f.irl

/-- Where its own fields are in range and its repeat is in the log, MARK_OUT is answered by the line, then by the target (R154, R155). -/
theorem markOut_logged {p : Port} {f : MarkFields} {s : State} {e : LogEntry} (inRange : f.inRange = true)
    (logged : s.ru.query f.rn = some e) :
    let t := markerTarget e f.irl (s.mku.outputs.get f.output).distance
    (f.Outside e → markOut p f s = refuse .range s)
    ∧ (¬f.Outside e → lineDiff t s.mu.wln ≤ 0 → markOut p f s = refuse .late s)
    ∧ (¬f.Outside e → 0 < lineDiff t s.mu.wln → markOut p f s = placeMarker p f.output t f.width s) := by
  intro t
  have checks : markOut p f s =
      if f.irl < e.firstIrl then refuse .range s
      else if (e.length.any fun n => decide (e.firstIrl + n ≤ f.irl)) = true then refuse .range s
      else if lineDiff t s.mu.wln ≤ 0 then refuse .late s else placeMarker p f.output t f.width s := by
    rw [markOut, if_pos inRange, logged]
    dsimp only
    cases e.length <;> rfl
  have beyond : (e.length.any fun n => decide (e.firstIrl + n ≤ f.irl)) = true ↔ ∃ n, e.length = some n ∧ e.firstIrl + n ≤ f.irl := by
    rw [Option.any_eq_true]
    simp only [decide_eq_true_eq]
  rw [checks]
  refine ⟨fun outside => ?_, fun inside late => ?_, fun inside ahead => ?_⟩
  · rcases outside with before | past
    · exact if_pos before
    · rw [if_pos (beyond.mpr past), ite_self]
  all_goals
    obtain ⟨first, last⟩ := not_or.mp inside
    rw [if_neg first, if_neg (last ∘ beyond.mp)]
  · exact if_pos late
  · exact if_neg (not_le.mpr ahead)

/-! ### A marker placed (R156) -/

/-- Some entry of a queue has an output and a target exactly where the model's test finds one. -/
theorem any_isFor {q : List MarkerEntry} {o : Output} {t : Line} :
    (q.any fun m => m.isFor o t) = true ↔ ∃ m ∈ q, m.output = o ∧ m.target = t := by
  simp [MarkerEntry.isFor]

theorem placeMarker_merge {p : Port} {o : Output} {t : Line} {width : Nat} {s : State}
    (same : ∃ m ∈ s.mku.queue, m.output = o ∧ m.target = t) :
    placeMarker p o t width s = (s.withMku { s.mku with
      queue := s.mku.queue.map fun m => if m.output = o ∧ m.target = t then
        { m with width := max m.width width, requesters := m.requesters.set p true } else m },
      { code := .done, merged := true }) := by
  have merged : mergeMarker o t width p s.mku.queue = s.mku.queue.map fun m => if m.output = o ∧ m.target = t then
      { m with width := max m.width width, requesters := m.requesters.set p true } else m := by
    simp only [mergeMarker, MarkerEntry.isFor, Bool.and_eq_true, decide_eq_true_eq]
  rw [← merged]
  exact if_pos (any_isFor.mpr same)

theorem placeMarker_full {p : Port} {o : Output} {t : Line} {width : Nat} {s : State}
    (fresh : ¬∃ m ∈ s.mku.queue, m.output = o ∧ m.target = t) (full : 32 ≤ s.mku.queue.length) :
    placeMarker p o t width s = refuse .full s :=
  (if_neg (fresh ∘ any_isFor.mp)).trans (if_neg (not_lt.mpr full))

theorem placeMarker_insert {p : Port} {o : Output} {t : Line} {width : Nat} {s : State}
    (fresh : ¬∃ m ∈ s.mku.queue, m.output = o ∧ m.target = t) (room : s.mku.queue.length < 32) :
    placeMarker p o t width s = (s.withMku { s.mku with queue := insertMarker {
      output := o, target := t, width := width, requesters := (PerPort.all false).set p true } s.mku.queue }, { code := .done }) :=
  (if_neg (fresh ∘ any_isFor.mp)).trans (if_pos room)

/-- The entries an inserted one comes after have targets at or before its own, and the first it comes before has one after it (R156). -/
theorem insertMarker_split (e : MarkerEntry) (q : List MarkerEntry) : ∃ before after,
    q = before ++ after ∧ (∀ m ∈ before, lineDiff m.target e.target ≤ 0)
    ∧ (∀ m, after.head? = some m → 0 < lineDiff m.target e.target) ∧ insertMarker e q = before ++ e :: after := by
  set test := fun x : MarkerEntry => atOrBefore x.target e.target
  refine ⟨q.takeWhile test, q.dropWhile test, List.takeWhile_append_dropWhile.symm, fun m mem => ?_, fun m first => ?_, rfl⟩
  · exact of_decide_eq_true (List.mem_takeWhile_imp (p := test) mem)
  · have fails := List.head?_dropWhile_not test q
    rw [first] at fails
    exact not_le.mp (of_decide_eq_false fails)

/-- The set with one port as the only requester. -/
theorem requesters_single (p : Port) : (PerPort.all false).set p true =
    { c0 := decide (p = .c0), c1 := decide (p = .c1), c2 := decide (p = .c2), c3 := decide (p = .c3) } := by
  cases p <;> rfl

/-! ### The request -/

theorem ifLive_live {s : State} {p : Port} (live : (s.port p).state = .live) (act : RequestFrame → State → State × Answer)
    (f : RequestFrame) : ifLive p act f s = act f s :=
  if_pos (beq_iff_eq.mpr live)

theorem ifLive_other {s : State} {p : Port} (other : (s.port p).state ≠ .live) (act : RequestFrame → State → State × Answer)
    (f : RequestFrame) : ifLive p act f s = refuse .state s :=
  if_neg (other ∘ beq_iff_eq.mp)

/-- Settles O56: the log is queried by `LogOk.query_iff`, and the checks and the placing follow the model's own order. -/
theorem markOutTaken : Obligations.MarkOutTaken := by
  unfold Obligations.MarkOutTaken
  intro s p tag rest f settled log taken fits
  extract_lets answer good
  set frame := (Request.markOut f).frame tag
  set t := requestLeft p rest s with ht
  have kind : frame.requestKind = some .markOut := Request.frame_kind _ tag
  have state : (t.port p).state = (s.port p).state := by rw [ht, requestLeft, State.port_setPort_self]
  have checked : f.inRange = true ↔ good := decide_eq_true_iff
  have read : (s.port p).state = .live → ifLive p (withFields readMark (markOut p)) frame t = markOut p f t := fun live => by
    rw [ifLive_live (state.trans live), withFields_read (readMark_fields fits)]
  have refused : ∀ {c}, (s.port p).state = .live → markOut p f t = refuse c t →
      exec (.markOut p) s = .next (answer { code := c } s) := fun live does =>
    takeRequest_answered settled taken kind ((read live).trans does)
  have placed : ∀ {m a}, (s.port p).state = .live → markOut p f t = (t.withMku m, a) →
      exec (.markOut p) s = .next (answer a (s.withMku m)) := fun live does =>
    takeRequest_withMku settled taken kind ((read live).trans does)
  refine ⟨fun other => ?_, fun live bad => refused live (if_neg (bad ∘ checked.mp)), fun live fine unknown => refused live ?_,
    fun e mem live fine rn => ?_⟩
  · exact takeRequest_answered settled taken kind (ifLive_other (by rwa [state]) _ _)
  · have unlogged : t.ru.query f.rn = none := Option.eq_none_iff_forall_ne_some.mpr fun e found =>
      have ⟨mem, rn⟩ := (log.query_iff f.rn e).mp found
      unknown e mem rn
    rw [markOut, if_pos (checked.mpr fine), unlogged]
  · extract_lets target outside same
    obtain ⟨range, late, ahead⟩ := markOut_logged (p := p) (s := t) (checked.mpr fine) ((log.query_iff f.rn e).mpr ⟨mem, rn⟩)
    refine ⟨fun out => refused live (range out), fun inside past => refused live (late inside past), fun inside after twin => ?_,
      fun inside after fresh full => ?_, fun inside after fresh room => ?_⟩
    · exact placed live ((ahead inside after).trans (placeMarker_merge twin))
    · exact refused live ((ahead inside after).trans (placeMarker_full fresh full))
    · obtain ⟨before, behind, queue, atOrBefore, later, inserted⟩ := insertMarker_split {
        output := f.output, target := target, width := f.width, requesters := (PerPort.all false).set p true } s.mku.queue
      refine ⟨before, behind, queue, atOrBefore, later, placed live ?_⟩
      rw [← requesters_single, ← inserted]
      exact (ahead inside after).trans (placeMarker_insert fresh room)

end Sys2Proof.Machine
end

section
/-!
SUPPORT AND PROOF. The envelope of a frame (11.1) and the arrival of a request frame (R163, R164, R177), with the step that takes a command
from the queue.
-/

namespace Sys2Proof.Machine

/-! ### A step takes the front of the queue (0.5) -/

/-- Settles O1. -/
theorem stepTakesFront : Obligations.StepTakesFront := by
  unfold Obligations.StepTakesFront
  intro c rest s front
  rw [step, front]

/-! ### The envelope (11.1) -/

/-- A frame before its check: type, length of the whole frame, body. -/
def envelopeHead (type : Byte) (body : List Byte) : List Byte := type :: leBytes 4 (body.length + 9) ++ body

theorem envelope_eq (type : Byte) (body : List Byte) :
    envelope type body = envelopeHead type body ++ leBytes 4 (frameCheck (envelopeHead type body)).toNat := rfl

@[simp] theorem envelopeHead_length (type : Byte) (body : List Byte) : (envelopeHead type body).length = body.length + 5 := by
  simp [envelopeHead]
  omega

theorem envelope_length (type : Byte) (body : List Byte) : (envelope type body).length = body.length + 9 := by
  rw [envelope_eq, List.length_append, envelopeHead_length, leBytes_length]

theorem envelope_head? (type : Byte) (body : List Byte) : (envelope type body).head? = some type := rfl

/-- The length field of a frame below 2^32 bytes is the number of its bytes. -/
theorem envelope_lengthField {type : Byte} {body : List Byte} (small : body.length + 9 < 4294967296) :
    leValue (((envelope type body).drop 1).take 4) = body.length + 9 := by
  have field : ((envelope type body).drop 1).take 4 = leBytes 4 (body.length + 9) := rfl
  rw [field, leValue_leBytes small]

theorem envelope_take (type : Byte) (body : List Byte) : (envelope type body).take (body.length + 5) = envelopeHead type body :=
  List.take_left' (envelopeHead_length type body)

/-- The check field of a frame is the check of the bytes before it. -/
theorem envelope_checkField (type : Byte) (body : List Byte) :
    leValue ((envelope type body).drop (body.length + 5)) = (frameCheck (envelopeHead type body)).toNat := by
  rw [envelope_eq, List.drop_left' (envelopeHead_length type body), leValue_leBytes (BitVec.isLt _)]

/-- The bytes of a frame between its length field and its check are its body. -/
theorem envelope_body (type : Byte) (body : List Byte) : ((envelope type body).drop 5).take body.length = body := by
  have rest : (envelope type body).drop 5 = body ++ leBytes 4 (frameCheck (envelopeHead type body)).toNat := rfl
  rw [rest, List.take_left]

/-- Settles O15: the four tests of R177 hold field by field, and the body gives the frame back. -/
theorem requestFrameRoundTrip : Obligations.RequestFrameRoundTrip := by
  unfold Obligations.RequestFrameRoundTrip
  intro f small
  set body := f.kind :: f.tag :: f.fields
  have size : body.length = f.fields.length + 2 := rfl
  have bytes : f.bytes = envelope 1 body := rfl
  have tests : (envelope 1 body).head? = some 1 ∧ 11 ≤ body.length + 9
      ∧ leValue (((envelope 1 body).drop 1).take 4) = body.length + 9
      ∧ leValue ((envelope 1 body).drop (body.length + 5))
        = (frameCheck ((envelope 1 body).take (body.length + 5))).toNat := by
    refine ⟨envelope_head? 1 body, by omega, envelope_lengthField (by omega), ?_⟩
    rw [envelope_take, envelope_checkField]
  have check : body.length + 9 - 4 = body.length + 5 := rfl
  rw [bytes, judgeFrame, envelope_length, check, if_pos tests, Nat.add_sub_cancel, envelope_body]
  rfl

/-- A frame that fails one of the tests of R177 is mismatched. -/
theorem judgeFrame_mismatched {bytes : List Byte} (fails : bytes.head? ≠ some 1 ∨ bytes.length < 11
      ∨ leValue ((bytes.drop 1).take 4) ≠ bytes.length
      ∨ leValue (bytes.drop (bytes.length - 4)) ≠ (frameCheck (bytes.take (bytes.length - 4))).toNat) : judgeFrame bytes = none := by
  refine if_neg fun ⟨type, enough, length, check⟩ => ?_
  rcases fails with wrong | short | wrong | wrong
  · exact wrong type
  · omega
  · exact wrong length
  · exact wrong check

/-! ### The arrival of a request frame (R163, R164) -/

/-- A settled state with one port's record replaced by one whose arbiter and whose stall timer have nothing to do. -/
theorem Settled.setPort {s : State} (h : Settled s) (p : Port) {c : ConsumerPort} (rests : c.restful s.windows s.bsc.bands)
    (stall : c.stall.isSome = c.stalling) : Settled (s.setPort p c) where
  arbiter := fun q => by
    rw [arbitrate_eq_self, State.port_setPort]
    split
    · exact rests
    · exact h.port_restful q
  stall := fun q => by
    rw [State.port_setPort]
    split
    · exact stall
    · exact h.stall q

theorem settle_countRequestError {s : State} (h : Settled s) (p : Port) :
    settle (countRequestError p s) = s.setPort p { s.port p with errors := (s.port p).errors + 1 } :=
  settle_settled (h.setPort p (h.port_restful p) (h.stall p))

/-- An accepted frame: it waits, or is answered QUEUE_FULL, or is counted as an error (R164). -/
theorem settle_acceptFrame {s : State} (h : Settled s) {p : Port} (up : (s.port p).isUp = true) (f : RequestFrame) :
    settle (acceptFrame p f s) =
      if (s.port p).requests.length < 8 then s.setPort p { s.port p with requests := (s.port p).requests ++ [f] }
      else if (s.port p).responses.length < 16 then
        answered p (s.port p).requests (Answer.response { code := .queueFull } f) s
      else s.setPort p { s.port p with errors := (s.port p).errors + 1 } := by
  rw [acceptFrame, Config.requestCapacity, Config.responseCapacity]
  split
  · exact settle_settled (h.setPort p (h.port_restful p) (h.stall p))
  · split
    · exact settle_respond h up rfl rfl rfl fun _ _ => rfl
    · exact settle_countRequestError h p

/-- Settles O58: the frame is judged by the tests of R177, and its effect is one that no arbiter acts on but for the answer. -/
theorem requestArrived : Obligations.RequestArrived := by
  unfold Obligations.RequestArrived
  intro s p settled c counted
  refine ⟨fun bytes up fails => ?_, fun f up small => ?_, fun bytes down => ?_⟩
  all_goals
    show execRequestArrival p _ s = _
    unfold execRequestArrival
  · rw [if_pos up, judgeFrame_mismatched fails]
    exact congrArg Host.Outcome.next (settle_countRequestError settled p)
  · rw [if_pos up, requestFrameRoundTrip f small]
    exact congrArg Host.Outcome.next (settle_acceptFrame settled up f)
  · exact if_neg (by rw [isUp_iff]; exact not_not.mpr down)

end Sys2Proof.Machine
end

section
/-!
SUPPORT AND PROOF. The refusals that the requests have in common (R165, R169, R178): what each kind checks before its fields, and the
reader of its fields.
-/

namespace Sys2Proof.Machine

/-- What a kind of request checks before its fields and after the claim: a commit pending (R73), a search in progress (R82), the state of
the port (R115, R153). -/
def RequestKind.checked (p : Port) (act : RequestFrame → State → State × Answer) : RequestKind → RequestFrame → State → State × Answer
  | .pageClear | .pageSeek | .pageFill | .pageCommit => unlessCommit act
  | .levelStart => unlessSearching act
  | .windowOpen | .markOut => ifLive p act
  | .setMotion | .setRepeat | .repeatRestart | .snapshot | .log | .setLane | .laneInfo | .tableRead | .levelAbort | .levelResults
  | .windowClose | .windowReturn | .windowInfo | .grant | .setStore | .setMarkerOut | .claim | .release | .notices | .status
  | .restart => act

/-- The claim, where a kind of request needs it (R165 step 2), and then the kind's own checks. -/
def RequestKind.guarded (p : Port) (act : RequestFrame → State → State × Answer) (kind : RequestKind) :
    RequestFrame → State → State × Answer :=
  match kind.isClaim with
  | true => asHolder p (kind.checked p act)
  | false => kind.checked p act

/-- The command of every kind takes a request with the kind's checks before its fields, read by the kind's layout (R165, R178). -/
theorem exec_command (p : Port) (s : State) (kind : RequestKind) :
    ∃ (α : Type) (read : List Byte → Option α) (act : α → State → State × Answer),
      exec (kind.command p) s = takeRequest p (some kind) (kind.guarded p (withFields read act)) s
      ∧ ∀ b, readRequest kind b = none → read b = none := by
  cases kind
  all_goals exact ⟨_, _, _, rfl, fun _ => Option.map_eq_none_iff.mp⟩

theorem guarded_notHolder {p : Port} {kind : RequestKind} {s : State} (claim : kind.isClaim = true) (other : s.shared.holder ≠ some p)
    (act : RequestFrame → State → State × Answer) (f : RequestFrame) : kind.guarded p act f s = refuse .notHolder s := by
  rw [RequestKind.guarded, claim]
  exact if_neg other

/-- A request that its kind's own checks let through (R73, R82, R115, R153). -/
theorem checked_passes {p : Port} {kind : RequestKind} {s : State}
    (noCommit : kind ∈ [.pageClear, .pageSeek, .pageFill, .pageCommit] → s.cb.commit = none)
    (noSearch : kind = .levelStart → ∀ x, s.le ≠ .searching x)
    (live : kind ∈ [.windowOpen, .markOut] → (s.port p).state = .live)
    (act : RequestFrame → State → State × Answer) (f : RequestFrame) : kind.checked p act f s = act f s := by
  cases kind
  case pageClear | pageSeek | pageFill | pageCommit => exact unlessCommit_idle (noCommit (by simp)) act f
  case levelStart => exact unlessSearching_idle (noSearch rfl) act f
  case windowOpen | markOut => exact ifLive_live (live (by simp)) act f
  all_goals rfl

/-- A request from the claim holder, or of a kind that needs no claim, goes on to its kind's own checks (R165 step 2). -/
theorem guarded_holder {p : Port} {kind : RequestKind} {s : State} (holder : kind.isClaim = true → s.shared.holder = some p)
    (act : RequestFrame → State → State × Answer) (f : RequestFrame) : kind.guarded p act f s = kind.checked p act f s := by
  unfold RequestKind.guarded
  cases claim : kind.isClaim with
  | true => exact asHolder_holder (holder claim) f
  | false => rfl

theorem withFields_unread {α : Type} {read : List Byte → Option α} {f : RequestFrame} (unread : read f.fields = none)
    (act : α → State → State × Answer) (s : State) : withFields read act f s = refuse .range s := by
  rw [withFields, unread]

theorem code_of_kindOfCode {n : Nat} {kind : RequestKind} (named : kindOfCode n = some kind) : kind.code = n := by
  unfold kindOfCode at named
  split at named <;> cases named <;> rfl

theorem RequestKind.code_range (kind : RequestKind) : 1 ≤ kind.code ∧ kind.code ≤ 28 := by
  cases kind <;> decide

/-- A code outside 1 to 28 names no request kind (11.3). -/
theorem kindOfCode_unknown {n : Nat} (outside : n = 0 ∨ 28 < n) : kindOfCode n = none :=
  Option.eq_none_iff_forall_ne_some.mpr fun kind named => by
    have code := code_of_kindOfCode named
    have range := kind.code_range
    omega

/-- Settles O59: BAD_KIND whatever the body, NOT_HOLDER at the first check of a claim request, RANGE where the checks before the fields
pass. -/
theorem requestsRefused : Obligations.RequestsRefused := by
  unfold Obligations.RequestsRefused
  intro s p f rest settled taken
  refine ⟨fun outside => ?_, fun kind named claim other => ?_, fun kind named holder noCommit noSearch live unread => ?_⟩
  · have unknown : f.requestKind = none := kindOfCode_unknown (outside.imp_left fun zero => by rw [zero]; rfl)
    exact takeRequest_answered settled taken unknown rfl
  · obtain ⟨_, _, _, run, _⟩ := exec_command p s kind
    rw [run]
    exact takeRequest_answered settled taken named (guarded_notHolder claim (by exact other) _ f)
  · obtain ⟨_, _, _, run, reads⟩ := exec_command p s kind
    have state : ((requestLeft p rest s).port p).state = (s.port p).state := by rw [requestLeft, State.port_setPort_self]
    rw [run]
    refine takeRequest_answered settled taken named ?_
    rw [guarded_holder (by exact holder), checked_passes (by exact noCommit) (by exact noSearch) (by rwa [state]),
      withFields_unread (reads _ unread)]
    rfl

end Sys2Proof.Machine
end

section
/-!
SUPPORT AND PROOF. The claim, the notice mask and RESTART (R167, R168, R171, R172, R175): what the end of the event leaves where a request
has raised notices alone, and the raising of a kind at a port.
-/

namespace Sys2Proof.Machine

/-! ### The end of an event with no strip to begin (R135 to R137)

In a settled state an entry may still wait at a LIVE port with credit, where its window or its band is not there (log 22). -/

/-- A port at which no strip can be begun. -/
def ConsumerPort.stripless (windows : List (Nat × Window)) (bands : List (Nat × Band)) (c : ConsumerPort) : Prop :=
  c.outbound = none → ∀ e, c.nextEntry = some e → c.state = .live → 1 ≤ c.credit → ¬beginnable windows bands e

theorem ConsumerPort.restful.stripless {windows : List (Nat × Window)} {bands : List (Nat × Band)} {c : ConsumerPort}
    (h : c.restful windows bands) : c.stripless windows bands := fun idle e next live credit =>
  (h (by rw [live]; nofun) idle).2.2 e next live credit

theorem arbitrate_windows {s : State} {p : Port} (none_begins : (s.port p).stripless s.windows s.bsc.bands) :
    (arbitrate s p).windows = s.windows := by
  unfold arbitrate
  dsimp only
  split
  · rfl
  · rfl
  next idle _ =>
    split
    · rfl
    · rfl
    · split
      · rfl
      next e next =>
        split
        next able => rw [beginStrip_fails p e s (none_begins idle e next able.1 able.2)]
        · rfl

/-- Where no port can begin a strip, the end of an event leaves the windows as they are. -/
theorem settle_windows {s : State} (none_begins : ∀ q, (s.port q).stripless s.windows s.bsc.bands) : (settle s).windows = s.windows := by
  have fold : ∀ (ps : List Port) {s : State}, (∀ q, (s.port q).stripless s.windows s.bsc.bands) →
      (ps.foldl arbitrate s).windows = s.windows := by
    intro ps
    induction ps with
    | nil => exact fun _ => rfl
    | cons p ps ih =>
      intro s none_begins
      obtain ⟨own, others, bsc, _⟩ := arbitrate_spec s p
      have windows := arbitrate_windows (none_begins p)
      refine (ih fun q => ?_).trans windows
      by_cases same : q = p
      · rw [same]
        exact own.stripless
      · rw [others q same, windows, bsc]
        exact none_begins q
  exact fold allPorts none_begins

/-- The windows leave a frame in which they have not changed. -/
theorem State.Agree.without_windows {A : List Part} {s t : State} (h : State.Agree (.windows :: A) s t)
    (windows : t.windows = s.windows) : State.Agree A s t where
  pending := fun n => h.pending (List.not_mem_cons_of_ne_of_not_mem nofun n)
  now := fun n => h.now (List.not_mem_cons_of_ne_of_not_mem nofun n)
  mu := fun n => h.mu (List.not_mem_cons_of_ne_of_not_mem nofun n)
  ru := fun n => h.ru (List.not_mem_cons_of_ne_of_not_mem nofun n)
  lanes := fun n => h.lanes (List.not_mem_cons_of_ne_of_not_mem nofun n)
  cb := fun n => h.cb (List.not_mem_cons_of_ne_of_not_mem nofun n)
  le := fun n => h.le (List.not_mem_cons_of_ne_of_not_mem nofun n)
  bsc := fun n => h.bsc (List.not_mem_cons_of_ne_of_not_mem nofun n)
  dram := fun n => h.dram (List.not_mem_cons_of_ne_of_not_mem nofun n)
  windows := fun _ => windows
  ports := fun n => h.ports (List.not_mem_cons_of_ne_of_not_mem nofun n)
  shared := fun n => h.shared (List.not_mem_cons_of_ne_of_not_mem nofun n)
  mku := fun n => h.mku (List.not_mem_cons_of_ne_of_not_mem nofun n)

/-! ### The claim given or given up (R167, R168) -/

/-- A request in a settled state that is answered DONE, changes the shared record and raises CLAIM at every other LIVE port: the response
is delivered, and no strip begins, since a raising makes none possible. -/
theorem takeRequest_claimMoved {s : State} {p : Port} {r : Request} {tag : Byte} {rest : List RequestFrame}
    {act : RequestFrame → State → State × Answer} {x : SharedRecord} (settled : Settled s) (taken : Taken s p (r.frame tag) rest)
    (does : act (r.frame tag) (requestLeft p rest s)
      = (raiseOthers p .claim ((requestLeft p rest s).withShared x), { code := .done })) :
    ∃ t, takeRequest p (some r.kind) act s = .next t ∧ t.shared = x ∧ Delivered s t p rest (responseTo r tag { code := .done })
      ∧ RaisedOthers p .claim s t ∧ State.Agree [.ports, .shared] s t := by
  set v := (requestLeft p rest s).withShared x
  set u := respond p (r.frame tag) { code := .done } (raiseOthers p .claim v)
  have own : v.port p = { s.port p with requests := rest } := State.port_setPort_self _ _ _
  have other : ∀ q, q ≠ p → v.port q = s.port q := fun q ne => State.port_setPort_ne _ _ ne
  have raised : ∀ q, ∃ pending notice, (raiseOthers p .claim v).port q = { v.port q with pendingSet := pending, notice := notice } :=
    raiseWhere_kept _ .claim v
  have none_begins : ∀ q, (u.port q).stripless u.windows u.bsc.bands := fun q => by
    have before := (settled.port_restful q).stripless
    obtain ⟨_, _, port⟩ := raised q
    rw [show u.port q = _ from State.port_setPort _ p q _]
    split
    next same =>
      subst same
      rw [port, own]
      exact before
    next ne =>
      rw [port, other q ne]
      exact before
  have moved : State.Agree [.ports, .shared] s u :=
    (((agree_setPort s p _ (by decide)).trans (agree_withShared _ x (by decide))).trans (raiseWhere_agree _ .claim v (by decide))).trans
      (agree_setPort _ p _ (by decide))
  have ends : State.Agree [.ports, .shared] u (settle u) :=
    ((settle_agree u).mono (B := [.windows, .ports, .shared]) (by decide)).without_windows (settle_windows none_begins)
  refine ⟨settle u, takeRequest_taken taken (Request.frame_kind r tag) does, settle_shared u,
    delivered_of_raises settled taken.isUp ?_, fun q => ?_, moved.trans ends⟩
  · obtain ⟨pending, notice, port⟩ := raised p
    exact ⟨pending, notice, by rw [port, own]⟩
  · rw [settle_pendingSet, respond_pendingSet, raiseOthers, raiseWhere_pendingSet]
    by_cases same : q = p
    · subst same
      simp [own]
    · rw [other q same]

theorem takeClaim_free {s : State} {p : Port} (free : s.shared.holder = none) :
    takeClaim p () s = (raiseOthers p .claim (s.withShared { s.shared with holder := some p }), { code := .done }) := by
  rw [takeClaim, free]

theorem takeClaim_own {s : State} {p : Port} (own : s.shared.holder = some p) : takeClaim p () s = (s, { code := .done }) := by
  rw [takeClaim, own]
  exact if_pos rfl

theorem takeClaim_held {s : State} {p q : Port} (ne : q ≠ p) (held : s.shared.holder = some q) :
    takeClaim p () s = (s, { code := .held, data := .holder q }) := by
  rw [takeClaim, held]
  exact if_neg ne

theorem exec_claim {s : State} {p : Port} {tag : Byte} {rest : List RequestFrame} (settled : Settled s)
    (taken : Taken s p (Request.claim.frame tag) rest) :
    (s.shared.holder = none → ∃ t, exec (.claim p) s = .next t ∧ t.shared = { s.shared with holder := some p }
      ∧ Delivered s t p rest (responseTo .claim tag { code := .done }) ∧ RaisedOthers p .claim s t
      ∧ State.Agree [.ports, .shared] s t)
    ∧ (s.shared.holder = some p → exec (.claim p) s = .next (answered p rest (responseTo .claim tag { code := .done }) s))
    ∧ ∀ q, q ≠ p → s.shared.holder = some q →
      exec (.claim p) s = .next (answered p rest (responseTo .claim tag { code := .held, data := .holder q }) s) := by
  have kind : (Request.claim.frame tag).requestKind = some .claim := Request.frame_kind _ tag
  have acts : withFields readNothing (takeClaim p) (Request.claim.frame tag) (requestLeft p rest s)
      = takeClaim p () (requestLeft p rest s) := withFields_read (x := ()) rfl _
  refine ⟨fun free => takeRequest_claimMoved settled taken (acts.trans (takeClaim_free (by exact free))), fun own => ?_,
    fun q ne held => ?_⟩
  · exact takeRequest_answered settled taken kind (acts.trans (takeClaim_own (by exact own)))
  · exact takeRequest_answered settled taken kind (acts.trans (takeClaim_held ne (by exact held)))

theorem exec_release {s : State} {p : Port} {tag : Byte} {rest : List RequestFrame} (settled : Settled s)
    (taken : Taken s p (Request.release.frame tag) rest) :
    (s.shared.holder = some p → ∃ t, exec (.release p) s = .next t ∧ t.shared = { s.shared with holder := none }
      ∧ Delivered s t p rest (responseTo .release tag { code := .done }) ∧ RaisedOthers p .claim s t
      ∧ State.Agree [.ports, .shared] s t)
    ∧ (s.shared.holder ≠ some p →
      exec (.release p) s = .next (answered p rest (responseTo .release tag { code := .notHolder }) s)) := by
  have acts : withFields readNothing (releaseClaim p) (Request.release.frame tag) (requestLeft p rest s)
      = releaseClaim p () (requestLeft p rest s) := withFields_read (x := ()) rfl _
  refine ⟨fun own => takeRequest_claimMoved settled taken (acts.trans (if_pos own)), fun other => ?_⟩
  exact takeRequest_answered settled taken (Request.frame_kind _ tag) (acts.trans (if_neg other))

/-! ### NOTICES (R172) -/

/-- A list of notice kinds is read back from its bytes (11.3). -/
theorem readKinds_flatMap (kinds : List NoticeKind) : readKinds (kinds.flatMap fun k => leBytes 1 (noticeCode k)) = some kinds := by
  induction kinds with
  | nil => rfl
  | cons k kinds ih =>
    obtain ⟨_, _, _, _, _, _, _, _, _, _, codes, _⟩ := codes_lt
    show readKinds (BitVec.ofNat 8 (noticeCode k) :: kinds.flatMap fun k => leBytes 1 (noticeCode k)) = _
    rw [readKinds, byte_toNat (codes k), noticeOfCode_noticeCode, ih]

theorem readNotices_fields {set : Bool} {kinds : List NoticeKind} (few : kinds.length < 256) :
    readNotices (Request.notices set kinds).fields = some (set, kinds) := by
  obtain ⟨_, _, _, _, _, _, _, _, _, selectors, _⟩ := codes_lt
  show readNotices (BitVec.ofNat 8 (codeOfSelector set) :: BitVec.ofNat 8 kinds.length
    :: kinds.flatMap fun k => leBytes 1 (noticeCode k)) = _
  rw [readNotices, byte_toNat (selectors set), selectorOfCode_codeOfSelector, readKinds_flatMap]
  exact if_pos (byte_toNat few).symm

/-- The mask after the kinds of a list are enabled or disabled: the listed kinds alone change. -/
theorem has_foldl_mask (set : Bool) (kinds : List NoticeKind) (k : NoticeKind) : ∀ mask : NoticeSet,
    NoticeSet.has (kinds.foldl (if set then NoticeSet.add else NoticeSet.remove) mask) k
      = if k ∈ kinds then set else NoticeSet.has mask k := by
  induction kinds with
  | nil => exact fun _ => rfl
  | cons j kinds ih =>
    intro mask
    have one : NoticeSet.has ((if set then NoticeSet.add else NoticeSet.remove) mask j) k
        = if k = j then set else NoticeSet.has mask k := by
      cases set
      · simp [NoticeSet.has_remove]
      · simp [NoticeSet.has_add]
    rw [List.foldl_cons, ih, one]
    by_cases listed : k ∈ kinds <;> simp [listed]

/-- A request taken in a settled state whose action replaces the mask of the port that takes it, which no arbiter and no stall timer
looks at. -/
theorem takeRequest_withMask {s : State} {p : Port} {f : RequestFrame} {rest : List RequestFrame} {k : Option RequestKind}
    {act : RequestFrame → State → State × Answer} {a : Answer} {mask : NoticeSet} (settled : Settled s) (taken : Taken s p f rest)
    (kind : f.requestKind = k)
    (does : act f (requestLeft p rest s) = ((requestLeft p rest s).setPort p { (requestLeft p rest s).port p with mask := mask }, a)) :
    takeRequest p k act s = .next (answered p rest (a.response f) (s.setPort p { s.port p with mask := mask })) := by
  set v := s.setPort p { s.port p with mask := mask } with hv
  have own : v.port p = { s.port p with mask := mask } := State.port_setPort_self _ _ _
  have masked : (requestLeft p rest s).setPort p { (requestLeft p rest s).port p with mask := mask } = requestLeft p rest v := by
    rw [requestLeft, requestLeft, own, hv, State.setPort_setPort, State.setPort_setPort, State.port_setPort_self]
  have vSettled : Settled v := settled.setPort p (settled.port_restful p) (settled.stall p)
  have up : (v.port p).isUp = true := by rw [own]; exact taken.isUp
  rw [takeRequest_taken taken kind (does.trans (by rw [masked])), settle_respond (t := requestLeft p rest v) vSettled up rfl rfl
    (State.port_setPort_self v p _) fun q ne => State.port_setPort_ne v _ ne]
  exact congrArg Host.Outcome.next (State.setPort_setPort v p _ _)

theorem exec_notices {s : State} {p : Port} {tag : Byte} {rest : List RequestFrame} {set : Bool} {kinds : List NoticeKind}
    (settled : Settled s) (taken : Taken s p ((Request.notices set kinds).frame tag) rest) (few : kinds.length < 256) :
    (1 ≤ kinds.length → kinds.length ≤ 13 →
      ∃ mask, (∀ k, NoticeSet.has mask k = if k ∈ kinds then set else NoticeSet.has (s.port p).mask k)
        ∧ exec (.notices p) s = .next (answered p rest (responseTo (.notices set kinds) tag { code := .done, data := .mask mask })
          (s.setPort p { s.port p with mask := mask })))
    ∧ (kinds = [] ∨ 13 < kinds.length →
      exec (.notices p) s = .next (answered p rest (responseTo (.notices set kinds) tag { code := .range }) s)) := by
  have kind : ((Request.notices set kinds).frame tag).requestKind = some .notices := Request.frame_kind _ tag
  have acts : withFields readNotices (setNotices p) ((Request.notices set kinds).frame tag) (requestLeft p rest s)
      = setNotices p (set, kinds) (requestLeft p rest s) := withFields_read (readNotices_fields few) _
  have kept : ((requestLeft p rest s).port p).mask = (s.port p).mask := by rw [requestLeft, State.port_setPort_self]
  refine ⟨fun some_listed bound => ⟨_, fun k => has_foldl_mask set kinds k _, ?_⟩, fun outside => ?_⟩
  · refine takeRequest_withMask settled taken kind (acts.trans ?_)
    rw [← kept]
    exact if_pos ⟨some_listed, bound⟩
  · refine takeRequest_answered settled taken kind (acts.trans (if_neg ?_))
    rintro ⟨some_listed, bound : kinds.length ≤ 13⟩
    rcases outside with rfl | many
    · cases some_listed
    · omega

/-! ### RESTART (R175) -/

theorem exec_restart {s : State} {p : Port} {tag : Byte} {rest : List RequestFrame} (settled : Settled s)
    (taken : Taken s p (Request.restart.frame tag) rest) (holder : s.shared.holder = some p) :
    exec (.restart p) s = .next (answered p rest (responseTo .restart tag { code := .done })
      (s.withShared { s.shared with restart := some p })) := by
  have does : asHolder p (withFields readNothing (beginRestart p)) (Request.restart.frame tag) (requestLeft p rest s)
      = ((requestLeft p rest s).withShared { s.shared with restart := some p }, { code := .done }) := by
    rw [asHolder_holder (by exact holder), withFields_read (x := ()) rfl]
    rfl
  show takeRequest p (some .restart) (asHolder p (withFields readNothing (beginRestart p))) s = _
  rw [takeRequest_settled (k := some .restart) settled taken (Request.frame_kind _ tag) does rfl rfl (State.port_setPort_self s p _)
    fun q ne => State.port_setPort_ne s _ ne]
  exact congrArg (fun u : State => Host.Outcome.next (u.withShared _)) (State.setPort_setPort s p _ _)

/-! ### The raising of a kind (R171) -/

theorem raisePort_pending {k : NoticeKind} {c : ConsumerPort} (pending : NoticeSet.has c.pendingSet k = true) : raisePort k c = c :=
  if_pos pending

/-- A kind that is not pending joins the pending set, and the mask decides whether a notice frame names it. -/
theorem raisePort_fresh {k : NoticeKind} {c : ConsumerPort} (fresh : NoticeSet.has c.pendingSet k = false) :
    raisePort k c = { c with
      pendingSet := NoticeSet.add c.pendingSet k
      notice := if NoticeSet.has c.mask k then some (NoticeSet.add (c.notice.getD 0) k) else c.notice } :=
  if_neg (by rw [fresh]; exact Bool.false_ne_true)

/-- A raising, at one port. -/
theorem raiseWhere_at (sel : Port → ConsumerPort → Bool) (k : NoticeKind) (s : State) (p : Port) :
    let c := s.port p
    let d := (raiseWhere sel k s).port p
    (sel p c = false ∨ NoticeSet.has c.pendingSet k = true → d = c)
    ∧ (sel p c = true → NoticeSet.has c.pendingSet k = false →
      (NoticeSet.has c.mask k = false → d = { c with pendingSet := NoticeSet.add c.pendingSet k })
      ∧ (NoticeSet.has c.mask k = true → c.notice = none →
        d = { c with pendingSet := NoticeSet.add c.pendingSet k, notice := some (NoticeSet.add 0 k) })
      ∧ ∀ kinds, NoticeSet.has c.mask k = true → c.notice = some kinds →
        d = { c with pendingSet := NoticeSet.add c.pendingSet k, notice := some (NoticeSet.add kinds k) }) := by
  intro c d
  have port : d = if sel p c then raisePort k c else c := raiseWhere_port sel k s p
  refine ⟨fun spared => ?_, fun selected fresh => ?_⟩
  · rw [port]
    rcases spared with spared | pending
    · rw [spared]
      rfl
    · rw [raisePort_pending pending, ite_self]
  · rw [port, if_pos selected, raisePort_fresh fresh]
    refine ⟨fun masked => ?_, fun enabled none_waits => ?_, fun kinds enabled waits => ?_⟩
    · rw [masked]
      rfl
    · rw [if_pos enabled, none_waits]
      rfl
    · rw [if_pos enabled, waits]
      rfl

/-- Settles O60: each request by its own lemma, and the raising port by port. -/
theorem claimsAndNotices : Obligations.ClaimsAndNotices := by
  unfold Obligations.ClaimsAndNotices
  refine ⟨fun s p tag rest settled => ⟨exec_claim settled, exec_release settled, fun set kinds => exec_notices settled,
    exec_restart settled⟩, fun sel k s => ⟨raiseWhere_agree sel k s (by decide), raiseWhere_at sel k s⟩, NoticeSet.has_add⟩

end Sys2Proof.Machine
end

section
/-!
SUPPORT AND PROOF. Field round trip of the requests (11.3, R178): each kind's layout reads its own field bytes back.
-/

namespace Sys2Proof.Machine

/-- A SET_STORE record is read back from its field bytes (11.3). -/
theorem readStore_fields {f : StoreFields} (h : (Request.setStore f).fits) : readStore (Request.setStore f).fields = some f := by
  obtain ⟨reserve, stallTimeout⟩ := h
  obtain ⟨_, _, _, _, _, _, _, _, ports, _⟩ := codes_lt
  have read : readStore (Request.setStore f).fields = (standbyOfCode (BitVec.ofNat 8 (codeOfPort f.standby)).toNat).map fun standby =>
      { reserve := leValue (leBytes 2 f.reserve), stallTimeout := leValue (leBytes 2 f.stallTimeout), standby := standby } := rfl
  rw [read, byte_toNat (ports _), standbyOfCode_codeOfPort, leValue_leBytes reserve, leValue_leBytes stallTimeout]
  rfl

/-- Settles O14: `readRequest` puts the kind's constructor on what the kind's own layout reads, so each kind follows from the
round trip of its layout. -/
theorem requestFieldsRoundTrip : Obligations.RequestFieldsRoundTrip := by
  unfold Obligations.RequestFieldsRoundTrip
  intro r fits
  cases r with
  | setMotion r => exact congrArg (Option.map Request.setMotion) (readMotion_fields fits)
  | setRepeat r => exact congrArg (Option.map Request.setRepeat) (readRepeat_fields fits)
  | setLane f => exact congrArg (Option.map Request.setLane) (readLane_fields fits)
  | laneInfo k => exact congrArg (Option.map Request.laneInfo) (readByte_leBytes fits)
  | pageSeek entry => exact congrArg (Option.map Request.pageSeek) (readSeek_fields fits)
  | pageFill entries => exact congrArg (Option.map Request.pageFill) (readFill_fields fits)
  | pageCommit lane page =>
    obtain ⟨lane_fits, page_fits⟩ := fits
    exact congrArg (Option.map fun x : Nat × Nat => Request.pageCommit x.1 x.2) (readPair_fields lane_fits page_fits)
  | tableRead lane entry =>
    obtain ⟨lane_fits, entry_fits⟩ := fits
    exact congrArg (Option.map fun x : Nat × Nat => Request.tableRead x.1 x.2) (readTable_fields lane_fits entry_fits)
  | levelStart f => exact congrArg (Option.map Request.levelStart) (readLevel_fields fits)
  | windowOpen f => exact congrArg (Option.map Request.windowOpen) (readWindow_fields fits)
  | windowClose id => exact congrArg (Option.map Request.windowClose) (readByte_leBytes fits)
  | windowReturn id => exact congrArg (Option.map Request.windowReturn) (readByte_leBytes fits)
  | windowInfo id => exact congrArg (Option.map Request.windowInfo) (readByte_leBytes fits)
  | grant n => exact congrArg (Option.map Request.grant) (readByte_leBytes fits)
  | setStore f => exact congrArg (Option.map Request.setStore) (readStore_fields fits)
  | markOut f => exact congrArg (Option.map Request.markOut) (readMark_fields fits)
  | setMarkerOut f => exact congrArg (Option.map Request.setMarkerOut) (readMarker_fields fits)
  | notices set kinds =>
    exact congrArg (Option.map fun x : Bool × List NoticeKind => Request.notices x.1 x.2) (readNotices_fields fits)
  | repeatRestart | snapshot | log | pageClear | levelAbort | levelResults | claim | release | status | restart => rfl

end Sys2Proof.Machine
end

section
/-!
SUPPORT AND PROOF. An idle step (log 3), and the sizes of the fields, the records and the frames of 11.1 and 11.4 to 11.6.
-/

namespace Sys2Proof.Machine

/-! ### A step on an empty queue (0.7, log 3) -/

/-- Settles O2: `step` takes its branch of the empty queue. -/
theorem idleTick : Obligations.IdleTick := by
  unfold Obligations.IdleTick
  intro s idle
  rw [step, idle]

/-! ### Fields (11.1) -/

@[simp] theorem u8_length (n : Nat) : (u8 n).length = 1 := leBytes_length 1 n

@[simp] theorem u16_length (n : Nat) : (u16 n).length = 2 := leBytes_length 2 n

@[simp] theorem u32_length (n : Nat) : (u32 n).length = 4 := leBytes_length 4 n

@[simp] theorem i16_length (n : Int) : (i16 n).length = 2 := u16_length _

@[simp] theorem count32_length (n : BitVec 32) : (count32 n).length = 4 := u32_length _

/-- The speed field has four bytes also where the estimate does not fit them (log 18). -/
@[simp] theorem speed32_length (n : Nat) : (speed32 n).length = 4 := by
  rw [speed32]
  split
  · exact u32_length n
  · exact count32_length _

@[simp] theorem flag8_length (b : Bool) : (flag8 b).length = 1 := u8_length _

@[simp] theorem port8_length (p : Option Port) : (port8 p).length = 1 := u8_length _

@[simp] theorem flagsByte_length (bits : List Bool) : (flagsByte bits).length = 1 := u8_length _

/-- A field that may be absent takes the same room absent and present. -/
theorem optional_length {write : Nat → List Byte} {size : Nat} (wide : ∀ n, (write n).length = size) (x : Option Nat) :
    (optional write x).length = 1 + size := by
  cases x with
  | none => rw [optional, List.length_append, u8_length, wide]
  | some n => rw [optional, List.length_append, u8_length, wide]

@[simp] theorem optional_u16_length (x : Option Nat) : (optional u16 x).length = 3 := optional_length u16_length x

@[simp] theorem optional_u32_length (x : Option Nat) : (optional u32 x).length = 5 := optional_length u32_length x

/-! ### Lists of records -/

/-- Records of one size, written for the elements that have one. -/
theorem flatMap_length_of_filter {α β : Type} {write : α → List β} {has : α → Bool} {size : Nat}
    (wide : ∀ a, (write a).length = if has a then size else 0) (as : List α) :
    (as.flatMap write).length = size * (as.filter has).length := by
  induction as with
  | nil => rfl
  | cons a as ih =>
    rw [List.flatMap_cons, List.length_append, ih, wide]
    by_cases h : has a
    · rw [if_pos h, List.filter_cons_of_pos h, List.length_cons, Nat.mul_succ, Nat.add_comm]
    · rw [if_neg h, List.filter_cons_of_neg h, Nat.zero_add]

/-- Records of one size, written for every element. -/
theorem flatMap_length_of_const {α β : Type} {write : α → List β} {size : Nat} (wide : ∀ a, (write a).length = size) (as : List α) :
    (as.flatMap write).length = size * as.length := by
  rw [flatMap_length_of_filter (has := fun _ => true) wide, List.filter_true]

/-! ### Records (11.6)

A long record is opened with `delta`: Lean's equation lemma for a definition that joins many fields is costly to make. -/

theorem SnapshotRecord.bytes_length (r : SnapshotRecord) : r.bytes.length = 25 := by
  simp [SnapshotRecord.bytes]

theorem LogEntry.bytes_length (e : LogEntry) : e.bytes.length = 26 := by
  simp [LogEntry.bytes]

theorem logBytes_length (es : List LogEntry) : (logBytes es).length = 1 + 26 * es.length := by
  rw [logBytes, List.length_append, u8_length, flatMap_length_of_const LogEntry.bytes_length]

/-- Each of the four pending items takes the same room absent and present. -/
@[simp] theorem LaneFrontEnd.pendingBytes_length (l : LaneFrontEnd) : l.pendingBytes.length = 16 := by
  rw [LaneFrontEnd.pendingBytes, List.length_append, List.length_append, List.length_append, optional_u16_length]
  show _ = 3 + 3 + 5 + 5
  refine congrArg₂ (· + ·) (congrArg₂ (· + ·) (congrArg (· + 3) ?mode) ?width) ?immediate
  case mode => cases l.pendingMode <;> rfl
  case width => cases l.pendingWidth <;> rfl
  case immediate => cases l.pendingImmediate <;> rfl

@[simp] theorem LaneCounters.bytes_length (c : LaneCounters) : c.bytes.length = 40 := by
  simp [LaneCounters.bytes]

theorem laneBytes_length (k : Lane) (l : LaneFrontEnd) : (laneBytes k l).length = 83 := by
  delta laneBytes
  simp

/-- A set of lanes names at most eight. -/
theorem lanesOf_length_le (set : PerLane Bool) : (lanesOf set).length ≤ 8 := by
  rw [lanesOf, List.length_map]
  exact List.length_filter_le _ allLanes

/-- The eight lane bytes are those of the set's lanes, filled up with zeros. -/
@[simp] theorem windowLaneBytes_length (lanes : Option (PerLane Bool)) : (windowLaneBytes lanes).length = 10 := by
  cases lanes with
  | none => rfl
  | some set =>
    have few := lanesOf_length_le set
    have listed : ((lanesOf set).flatMap u8).length = 1 * (lanesOf set).length := flatMap_length_of_const u8_length _
    simp only [windowLaneBytes, List.length_append, u8_length, listed, List.length_replicate]
    omega

theorem windowBytes_length (id : Nat) (w : Window) : (windowBytes id w).length = 43 := by
  delta windowBytes
  simp

theorem StatusRecord.bytes_length (r : StatusRecord) : r.bytes.length = 72 := by
  delta StatusRecord.bytes
  simp

/-! ### LEVEL_RESULTS (R90) -/

@[simp] theorem levelRequestBytes_length (r : LevelRequest) (p : Port) (start : Line) : (levelRequestBytes r p start).length = 11 := by
  simp [levelRequestBytes]

theorem levelLaneBytes_length (k : Lane) (probe status : Nat) (edge : Option Edge) (new : Option Nat) :
    (levelLaneBytes k probe status edge new).length = 15 := by
  simp [levelLaneBytes]

/-- The count and a record for each lane of the set. -/
theorem levelLanesBytes_length {α : Type} (records : PerLane (Option α)) {write : Lane → α → List Byte}
    (wide : ∀ k r, (write k r).length = 15) :
    (levelLanesBytes records write).length = 1 + 15 * (allLanes.filter fun k => (records.get k).isSome).length := by
  rw [levelLanesBytes, List.length_append, u8_length, flatMap_length_of_filter]
  intro k
  cases records.get k with
  | none => rfl
  | some r => exact wide k r

theorem levelBytes_idle_length : (levelBytes .idle).length = 19 := rfl

theorem levelBytes_searching_length (x : Search) :
    (levelBytes (.searching x)).length = 19 + 15 * (allLanes.filter fun k => (x.records.get k).isSome).length := by
  have records := levelLanesBytes_length x.records fun k r => levelLaneBytes_length k r.probe (codeOfSearch r.status) r.edge none
  rw [levelBytes, List.length_append, records, ← Nat.add_assoc]
  refine congrArg (· + _) ?_
  simp

theorem levelBytes_done_length (f : Finished) :
    (levelBytes (.done f)).length = 19 + 15 * (allLanes.filter fun k => (f.results.get k).isSome).length := by
  have records := levelLanesBytes_length f.results fun k r => levelLaneBytes_length k r.probe (codeOfResult r.status) r.edge r.newOffset
  rw [levelBytes, List.length_append, records, ← Nat.add_assoc]
  refine congrArg (· + _) ?_
  simp

/-! ### Frames (11.4, 11.5) -/

theorem noticeFrame_length (kinds : NoticeSet) : (envelope 3 (u16 kinds.toNat)).length = 11 := by
  rw [envelope_length, u16_length]

/-- The header's fixed fields and its presence list. -/
theorem StripHeader.bytes_length (h : StripHeader) : h.bytes.length = 46 + 2 * h.presence.length := by
  have list : (h.presence.flatMap u16).length = 2 * h.presence.length := flatMap_length_of_const u16_length _
  delta StripHeader.bytes
  rw [List.length_append, list]
  refine congrArg (· + 2 * h.presence.length) ?_
  simp

/-- A strip header lists a sample count for each clipped line (R138). -/
theorem stripHeader_presence_length (e : Entry) (w : Window) (b : Band) (r : SealRecord) :
    (stripHeader e w b r).presence.length = e.lines := by
  show (clipPresence b e).length = e.lines
  rw [clipPresence, List.length_map, List.length_range]

theorem stripFrame_length (s : State) (e : Entry) (w : Window) (b : Band) (r : SealRecord) :
    (envelope 4 ((stripHeader e w b r).bytes ++ stripPayload s.dram e b r.fill)).length
      = 5 + 46 + 2 * e.lines + e.lines * e.columns + 4 := by
  obtain ⟨payload, _⟩ := stripPayload_get s.dram e b r.fill
  rw [envelope_length, List.length_append, StripHeader.bytes_length, stripHeader_presence_length, payload]
  omega

/-- Settles O16: each record and frame by its own lemma. -/
theorem frameSizes : Obligations.FrameSizes := by
  unfold Obligations.FrameSizes
  exact ⟨SnapshotRecord.bytes_length, logBytes_length, laneBytes_length, windowBytes_length, StatusRecord.bytes_length, levelBytes_idle_length,
    levelBytes_searching_length, levelBytes_done_length, noticeFrame_length, stripFrame_length⟩

end Sys2Proof.Machine
end

section
/-!
SUPPORT AND PROOF. The bytes of the store, the state of every slot and the pressure (R92 to R94, R96, R108, R109) under seals, placements,
releases, SET_STORE and the resets, and with them under every step.
-/

namespace Sys2Proof.Machine

/-! ### The bytes of the store (R96) -/

theorem extendBand_memory {s : State} (h : Memory.wf s.dram) (slot : Nat) (b : Band) (x : Placement) :
    Memory.wf (extendBand slot b x s).dram := by
  have sealed : ∀ t : State, (sealBand x.lane false t).dram = t.dram := fun t => (sealBand_agree _ _ t).dram (by decide)
  unfold extendBand
  extract_lets t
  have written : Memory.wf t.dram := by
    unfold t
    split
    · exact h
    · exact Memory.wf_dramWrite _ _ _ h
  split
  · rw [sealed]; exact written
  · exact written

theorem openBand_memory {s : State} (h : Memory.wf s.dram) (x : Placement) : Memory.wf (openBand x s).dram := by
  unfold openBand
  split
  · exact h
  · refine extendBand_memory ?_ _ _ x
    rw [(judgePressure_agree (A := [.bsc, .ports]) _ (by decide) (by decide)).dram (by decide)]
    exact h

theorem place_memory {s : State} (h : Memory.wf s.dram) (x : Placement) : Memory.wf (place x s).dram := by
  have next : Memory.wf (openBand x (sealBand x.lane false s)).dram := by
    refine openBand_memory ?_ x
    rw [(sealBand_agree _ _ s).dram (by decide)]
    exact h
  unfold place
  split
  · exact openBand_memory h x
  · split
    · exact next
    · split
      · exact extendBand_memory h _ _ x
      · exact next

theorem StoreWork.memory {s t : State} (work : StoreWork s t) : Memory.wf s.dram → Memory.wf t.dram := by
  induction work with
  | quiet _ dram _ _ => rw [dram]; exact id
  | seals k stop s => rw [(sealBand_agree k stop s).dram (by decide)]; exact id
  | places x s => exact fun h => place_memory h x
  | trans _ _ first second => exact second ∘ first

/-- Settles O5: only the lines of a count, of an arrival and of a lost lane link reach the store's bytes, and every write keeps their form. -/
theorem stepKeepsStore : Obligations.StepKeepsStore := by
  unfold Obligations.StepKeepsStore
  intro s t h e
  unfold step at e
  split at e
  · cases e; exact h
  next c rest _ =>
    set u := s.withPending rest
    have worked : ∀ v, StoreWork u v → Memory.wf (settle v).dram := fun v work => by
      rw [settle_dram]
      exact work.memory h
    by_cases spared : Part.dram ∉ touched c
    · obtain ⟨v, hv, agree⟩ := commandFrames c u
      rw [hv] at e
      cases e
      rw [agree.dram spared]
      exact h
    · cases c with
      | encoderCount inputs => cases e; exact worked _ (encoderChange_work inputs u)
      | lineArrival k frame => cases e; exact worked _ (arriveLine_work k frame u)
      | laneLinkLoss k => cases e; exact worked _ (loseLaneLink_work k u)
      | _ => exact absurd (by simp [touched, deliveryParts]) spared

/-! ### The three states of a slot (R92 to R94) -/

theorem mem_keys_iff {α : Type} (t : List (Nat × α)) (k : Nat) : k ∈ t.map (·.1) ↔ (tableGet t k).isSome = true := by
  constructor
  · intro mem
    obtain ⟨⟨_, x⟩, listed, rfl⟩ := List.mem_map.mp mem
    exact tableGet_isSome_of_mem listed
  · intro some
    obtain ⟨x, now⟩ := Option.isSome_iff_exists.mp some
    exact List.mem_map.mpr ⟨(k, x), mem_of_tableGet now, rfl⟩

/-- `SlotsOk` by slots: the free list names, once each, the slots without a record. -/
structure SlotsSplit (s : State) : Prop where
  sorted : tableSorted s.bsc.bands
  nodup : s.bsc.free.Nodup
  free : ∀ slot, slot ∈ s.bsc.free ↔ slot < Config.slotCount ∧ s.band slot = none
  bound : ∀ slot b, s.band slot = some b → slot < Config.slotCount
  filling : ∀ k slot, s.bsc.filling.get k = some slot ↔ ∃ b, s.band slot = some b ∧ b.lane = k ∧ b.sealing = none

theorem slotsOk_iff (s : State) : SlotsOk s ↔ SlotsSplit s := by
  have key : ∀ slot, slot ∈ s.bsc.bands.map (·.1) ↔ (s.band slot).isSome = true := mem_keys_iff s.bsc.bands
  constructor
  · intro h
    have mem : ∀ slot, slot ∈ s.bsc.free ++ s.bsc.bands.map (·.1) ↔ slot < Config.slotCount := fun slot =>
      h.once.mem_iff.trans List.mem_range
    obtain ⟨nodup, _, apart⟩ := List.nodup_append'.mp (h.once.nodup_iff.mpr List.nodup_range)
    refine ⟨h.sorted, nodup, fun slot => ⟨fun free => ⟨(mem slot).mp (List.mem_append_left _ free), ?_⟩, fun ⟨bound, absent⟩ => ?_⟩,
      fun slot b band => (mem slot).mp (List.mem_append_right _ ((key slot).mpr (by rw [band]; rfl))), h.filling⟩
    · by_contra some
      exact apart free ((key slot).mpr (Option.isSome_iff_ne_none.mpr some))
    · refine (List.mem_append.mp ((mem slot).mpr bound)).resolve_right fun listed => ?_
      rw [key, absent] at listed
      cases listed
  · intro h
    have keys : (s.bsc.bands.map (·.1)).Nodup := List.pairwise_map.mpr (h.sorted.imp fun less => Nat.ne_of_lt less)
    have apart : s.bsc.free.Disjoint (s.bsc.bands.map (·.1)) := fun slot free listed => by
      rw [key, ((h.free slot).mp free).2] at listed
      cases listed
    refine ⟨h.sorted, (List.perm_ext_iff_of_nodup (List.nodup_append'.mpr ⟨h.nodup, keys, apart⟩) List.nodup_range).mpr fun slot => ?_,
      h.filling⟩
    rw [List.mem_append, h.free, key, List.mem_range]
    cases band : s.band slot with
    | none => simp
    | some b => simp [h.bound slot b band]

theorem SlotsOk.split {s : State} (h : SlotsOk s) : SlotsSplit s := (slotsOk_iff s).mp h

/-- A slot gets a record, its first or another one. -/
theorem SlotsSplit.put {s t : State} (h : SlotsSplit s) {slot : Nat} {b : Band} (bound : slot < Config.slotCount)
    (bands : t.bsc.bands = tablePut s.bsc.bands slot b) (nodup : t.bsc.free.Nodup)
    (free : ∀ other, other ∈ t.bsc.free ↔ other ≠ slot ∧ other ∈ s.bsc.free)
    (filling : ∀ k other, t.bsc.filling.get k = some other ↔
      if other = slot then b.lane = k ∧ b.sealing = none else s.bsc.filling.get k = some other) : SlotsSplit t := by
  have band : ∀ other, t.band other = if other = slot then some b else s.band other := fun other => by
    rw [State.band, bands]
    exact tableGet_put s.bsc.bands slot other b
  refine ⟨by rw [bands]; exact tablePut_sorted _ _ _ h.sorted, nodup, fun other => ?_, fun other c now => ?_, fun k other => ?_⟩
  · rw [free, h.free, band]
    split
    next own => simp [own]
    next ne => simp [ne]
  · rw [band] at now
    split at now
    next own => rw [own]; exact bound
    · exact h.bound other c now
  · rw [filling, band]
    split
    · simp
    · exact h.filling k other

/-- The record of a slot that is not FREE rewritten. -/
theorem SlotsSplit.rewrite {s t : State} (h : SlotsSplit s) {slot : Nat} {b c : Band} (now : s.band slot = some b)
    (bands : t.bsc.bands = tablePut s.bsc.bands slot c) (free : t.bsc.free = s.bsc.free)
    (filling : ∀ k other, t.bsc.filling.get k = some other ↔
      if other = slot then c.lane = k ∧ c.sealing = none else s.bsc.filling.get k = some other) : SlotsSplit t := by
  refine h.put (h.bound slot b now) bands (by rw [free]; exact h.nodup) (fun other => ?_) filling
  rw [free]
  refine ⟨fun mem => ⟨fun own => ?_, mem⟩, And.right⟩
  rw [h.free, own, now] at mem
  cases mem.2

/-- The record of a slot rewritten with the same lane, FILLING as before or HELD as before. -/
theorem SlotsSplit.rewriteSame {s t : State} (h : SlotsSplit s) {slot : Nat} {b c : Band} (now : s.band slot = some b)
    (bands : t.bsc.bands = tablePut s.bsc.bands slot c) (free : t.bsc.free = s.bsc.free) (same : t.bsc.filling = s.bsc.filling)
    (lane : c.lane = b.lane) (sealing : c.sealing = none ↔ b.sealing = none) : SlotsSplit t := by
  refine h.rewrite now bands free fun k other => ?_
  rw [same, lane, sealing]
  split
  next own => rw [h.filling, own, now]; simp
  · rfl

/-- A slot becomes FREE, and with it the lane's filling band is gone if it was that one. -/
theorem SlotsSplit.erase {s t : State} (h : SlotsSplit s) {slot : Nat} {b : Band} (now : s.band slot = some b)
    (bands : t.bsc.bands = tableErase s.bsc.bands slot) (free : t.bsc.free = s.bsc.free ++ [slot])
    (filling : ∀ k other, t.bsc.filling.get k = some other ↔ other ≠ slot ∧ s.bsc.filling.get k = some other) : SlotsSplit t := by
  have band : ∀ other, t.band other = if other = slot then none else s.band other := fun other => by
    rw [State.band, bands]
    exact tableGet_erase s.bsc.bands slot other
  refine ⟨by rw [bands]; exact tableErase_sorted _ _ h.sorted, ?_, fun other => ?_, fun other c some => ?_, fun k other => ?_⟩
  · rw [free]
    refine List.nodup_append'.mpr ⟨h.nodup, List.nodup_singleton slot, fun other mem own => ?_⟩
    rw [h.free, List.mem_singleton.mp own, now] at mem
    cases mem.2
  · rw [free, List.mem_append, List.mem_singleton, h.free, band]
    split
    next own => simp [own, h.bound slot b now]
    next ne => simp [ne]
  · rw [band] at some
    split at some
    · cases some
    · exact h.bound other c some
  · rw [filling, band]
    split
    next own => simp [own]
    next ne => simp [ne, h.filling]

theorem SlotsOk.congr {s t : State} (h : SlotsOk s) (bsc : t.bsc = s.bsc) : SlotsOk t := by
  have band : ∀ slot, t.band slot = s.band slot := fun slot => by rw [State.band, bsc]; rfl
  exact ⟨by rw [bsc]; exact h.sorted, by rw [bsc]; exact h.once, fun k slot => by rw [bsc, band]; exact h.filling k slot⟩

/-- Pressure and the slots' numbers do not enter the state of the slots. -/
theorem SlotsSplit.congr {s t : State} (h : SlotsSplit s) (bands : t.bsc.bands = s.bsc.bands) (free : t.bsc.free = s.bsc.free)
    (filling : t.bsc.filling = s.bsc.filling) : SlotsSplit t := by
  have band : ∀ slot, t.band slot = s.band slot := fun slot => by rw [State.band, bands]; rfl
  exact ⟨by rw [bands]; exact h.sorted, by rw [free]; exact h.nodup, fun slot => by rw [free, band]; exact h.free slot,
    fun slot b now => h.bound slot b (band slot ▸ now), fun k slot => by rw [filling, band]; exact h.filling k slot⟩

/-! ### A seal (R105, R106) -/

/-- The band that a seal hands to matching: its record completed, without holders yet (R105). -/
def sealedBand (k : Lane) (stop : Bool) (b : Band) (s : State) : Band := { b with sealing := some (sealRecord k stop b s) }

/-- The store when a seal hands the band to matching: the lane has no filling band, and the seal is numbered (R105). -/
def sealBegun (k : Lane) (s : State) : State :=
  s.withBsc { s.bsc with filling := s.bsc.filling.set k none, sealSequence := s.bsc.sealSequence + 1 }

/-- The matching of a seal, with the number of entries that it made. -/
def sealMatched (k : Lane) (stop : Bool) (slot : Nat) (b : Band) (s : State) : State × Nat :=
  matchBand slot (sealedBand k stop b s) (sealBegun k s)

/-- A seal: the band matched, then its slot FREE without entries and HELD by them otherwise (R106). -/
theorem sealBand_eq {k : Lane} {slot : Nat} {b : Band} {s : State} (stop : Bool) (filling : s.bsc.filling.get k = some slot)
    (band : s.band slot = some b) : sealBand k stop s =
      if (sealMatched k stop slot b s).2 = 0 then freeSlot slot (sealMatched k stop slot b s).1
      else putBand slot { b with sealing := some { sealRecord k stop b s with holders := (sealMatched k stop slot b s).2 } }
        (sealMatched k stop slot b s).1 := by
  unfold sealBand
  rw [filling]
  dsimp only
  rw [band]
  rfl

theorem sealBand_idle {k : Lane} {s : State} (stop : Bool) (filling : s.bsc.filling.get k = none) : sealBand k stop s = s := by
  unfold sealBand
  rw [filling]

theorem sealMatched_bsc (k : Lane) (stop : Bool) (slot : Nat) (b : Band) (s : State) :
    (sealMatched k stop slot b s).1.bsc = { s.bsc with
      filling := s.bsc.filling.set k none, sealSequence := s.bsc.sealSequence + 1 } := matchBand_bsc _ _ _

theorem SlotsOk.sealBand {s : State} (h : SlotsOk s) (k : Lane) (stop : Bool) : SlotsOk (sealBand k stop s) := by
  cases filling : s.bsc.filling.get k with
  | none => rw [sealBand_idle stop filling]; exact h
  | some slot =>
    obtain ⟨b, band, lane, open_⟩ := (h.filling k slot).mp filling
    have cleared : ∀ j other, (s.bsc.filling.set k none).get j = some other ↔ other ≠ slot ∧ s.bsc.filling.get j = some other := by
      intro j other
      rw [PerLane.get_set]
      split
      next own => simp [own, filling, eq_comm]
      next ne =>
        refine ⟨fun now => ⟨fun own => ne ?_, now⟩, And.right⟩
        obtain ⟨c, band', lane', _⟩ := (h.filling j other).mp now
        cases band.symm.trans (own ▸ band')
        exact lane'.symm.trans lane
    rw [slotsOk_iff, sealBand_eq stop filling band]
    split
    · exact h.split.erase band (by rw [freeSlot_bsc, sealMatched_bsc]) (by rw [freeSlot_bsc, sealMatched_bsc]) fun j other => by
        rw [freeSlot_bsc, sealMatched_bsc]
        exact cleared j other
    · refine h.split.rewrite (c := { b with sealing := some { sealRecord k stop b s with holders := (sealMatched k stop slot b s).2 } }) band
        (by rw [putBand, State.withBsc_bsc, sealMatched_bsc]) (by rw [putBand, State.withBsc_bsc, sealMatched_bsc]) fun j other => ?_
      rw [putBand, State.withBsc_bsc, sealMatched_bsc]
      refine (cleared j other).trans ?_
      split
      next own => simp [own]
      next ne => simp [ne]

/-! ### Releases (R107) -/

theorem SlotsOk.releaseSlot {s : State} (h : SlotsOk s) (slot : Nat) : SlotsOk (releaseSlot slot s) := by
  unfold Machine.releaseSlot
  split
  · exact h
  next b band =>
    split
    · exact h
    next r held =>
      rw [slotsOk_iff]
      split
      · refine h.split.erase band (by rw [freeSlot_bsc]) (by rw [freeSlot_bsc]) fun k other => ?_
        rw [freeSlot_bsc]
        refine ⟨fun now => ⟨fun own => ?_, now⟩, And.right⟩
        obtain ⟨c, band', _, open_⟩ := (h.filling k other).mp now
        cases band.symm.trans (own ▸ band')
        cases held.symm.trans open_
      · exact h.split.rewriteSame (c := { b with sealing := some { r with holders := r.holders - 1 } }) band rfl rfl rfl rfl (by simp [held])

/-! ### Placements (R95 to R100) -/

theorem SlotsOk.extendBand {s : State} (h : SlotsOk s) {slot : Nat} {b c : Band} (band : s.band slot = some c) (lane : b.lane = c.lane)
    (sealing : b.sealing = c.sealing) (x : Placement) : SlotsOk (extendBand slot b x s) := by
  unfold Machine.extendBand
  extract_lets t
  have written : SlotsOk t := by
    rw [slotsOk_iff]
    unfold t
    split
    · exact h.split.rewriteSame (c := { b with lastIrl := x.irl }) band rfl rfl rfl lane (by rw [sealing])
    next samples _ =>
      exact h.split.rewriteSame (c := { b with
        lastIrl := x.irl, presence := b.presence ++ [(x.irl, (samples.take b.width).length)] }) band rfl rfl rfl lane (by rw [sealing])
  exact iteInduction (motive := SlotsOk) (fun _ => written.sealBand _ _) fun _ => written

/-- The store with a band opened at the head of the free list (R98, R99). -/
def bandOpened (slot : Nat) (free : List Nat) (x : Placement) (s : State) : State :=
  s.withBsc { s.bsc with
    bands := tablePut s.bsc.bands slot (openedBand x (s.bsc.overrunPending.get x.lane)), free := free
    filling := s.bsc.filling.set x.lane (some slot), overrunPending := s.bsc.overrunPending.set x.lane false }

theorem openBand_full {x : Placement} {s : State} (free : s.bsc.free = []) : openBand x s = s.withBsc { s.bsc with
    overrunLines := s.bsc.overrunLines + 1, overrunPending := s.bsc.overrunPending.set x.lane true } := by
  unfold openBand
  rw [free]

theorem openBand_free {x : Placement} {s : State} {slot : Nat} {free : List Nat} (head : s.bsc.free = slot :: free) : openBand x s
    = extendBand slot (openedBand x (s.bsc.overrunPending.get x.lane)) x (judgePressure (bandOpened slot free x s)) := by
  unfold openBand
  rw [head]
  rfl

theorem bandOpened_band {slot : Nat} {free : List Nat} {x : Placement} {s : State} (other : Nat) : (bandOpened slot free x s).band other
    = if other = slot then some (openedBand x (s.bsc.overrunPending.get x.lane)) else s.band other := tableGet_put s.bsc.bands slot other _

theorem SlotsOk.judgePressure {s : State} (h : SlotsOk s) : SlotsOk (judgePressure s) :=
  (slotsOk_iff _).mpr (h.split.congr (by rw [judgePressure_bsc]) (by rw [judgePressure_bsc]) (by rw [judgePressure_bsc]))

theorem SlotsOk.bandOpened {s : State} (h : SlotsOk s) {x : Placement} (idle : s.bsc.filling.get x.lane = none) {slot : Nat}
    {free : List Nat} (head : s.bsc.free = slot :: free) : SlotsOk (bandOpened slot free x s) := by
  have split := h.split
  obtain ⟨fresh, nodup⟩ := List.nodup_cons.mp (head ▸ split.nodup)
  obtain ⟨bound, none⟩ := (split.free slot).mp (by rw [head]; exact List.mem_cons_self)
  rw [slotsOk_iff]
  refine split.put (b := openedBand x (s.bsc.overrunPending.get x.lane)) bound rfl nodup (fun other => ?_) fun k other => ?_
  · rw [head, List.mem_cons]
    refine ⟨fun mem => ⟨fun own => fresh (own ▸ mem), .inr mem⟩, fun ⟨ne, mem⟩ => mem.resolve_left ne⟩
  · show (s.bsc.filling.set x.lane (some slot)).get k = some other ↔ _
    rw [PerLane.get_set]
    by_cases own : k = x.lane
    · rw [if_pos own, own]
      split
      next same => simp [same, openedBand]
      next ne => simp [idle, Ne.symm ne]
    · rw [if_neg own]
      split
      next same =>
        rw [split.filling, same, none]
        simp [openedBand, Ne.symm own]
      · rfl

theorem SlotsOk.openBand {s : State} (h : SlotsOk s) {x : Placement} (idle : s.bsc.filling.get x.lane = none) : SlotsOk (openBand x s) := by
  cases head : s.bsc.free with
  | nil =>
    rw [openBand_full head, slotsOk_iff]
    exact h.split.congr rfl rfl rfl
  | cons slot free =>
    rw [openBand_free head]
    exact (h.bandOpened idle head).judgePressure.extendBand (by rw [judgePressure_band, bandOpened_band, if_pos rfl]) rfl rfl x

theorem sealBand_filling_self (k : Lane) (stop : Bool) (s : State) : (sealBand k stop s).bsc.filling.get k = none := by
  rw [sealBand_filling, PerLane.get_set_self]

theorem place_idle {x : Placement} {s : State} (idle : s.bsc.filling.get x.lane = none) : place x s = openBand x s := by
  unfold place
  rw [idle]

/-- A line in a filling band: it extends the band or it seals it and opens the next (R95, R98). -/
theorem place_filling {x : Placement} {s : State} {slot : Nat} {b : Band} (filling : s.bsc.filling.get x.lane = some slot)
    (band : s.band slot = some b) :
    place x s = if x.fits b then extendBand slot b x s else openBand x (sealBand x.lane false s) := by
  unfold place
  rw [filling]
  dsimp only
  rw [band]

theorem SlotsOk.place {s : State} (h : SlotsOk s) (x : Placement) : SlotsOk (place x s) := by
  cases filling : s.bsc.filling.get x.lane with
  | none => rw [place_idle filling]; exact h.openBand filling
  | some slot =>
    obtain ⟨b, band, lane, open_⟩ := (h.filling x.lane slot).mp filling
    rw [place_filling filling band]
    split
    · exact h.extendBand band rfl rfl x
    · exact (h.sealBand x.lane false).openBand (sealBand_filling_self _ _ _)

/-! ### Pressure (R108, R109) -/

theorem PressureOk.congr {s t : State} (h : PressureOk s) (pressure : t.bsc.pressure = s.bsc.pressure)
    (free : t.bsc.free = s.bsc.free) (reserve : t.bsc.reserve = s.bsc.reserve) : PressureOk t :=
  ⟨by rw [pressure, free, reserve]; exact h.entered, by rw [pressure, free, reserve]; exact h.left⟩

theorem le_of_pressureAfter {pressure : Bool} {reserve free : Nat} (on : pressureAfter pressure reserve free = true) :
    free ≤ reserve + 32 := by
  cases pressure with
  | true => exact of_decide_eq_true on
  | false => exact Nat.le_add_right_of_le (of_decide_eq_true on)

theorem lt_of_pressureAfter {pressure : Bool} {reserve free : Nat} (off : pressureAfter pressure reserve free = false) :
    reserve < free := by
  cases pressure with
  | true => exact Nat.lt_of_le_of_lt (Nat.le_add_right _ _) (Nat.lt_of_not_le (of_decide_eq_false off))
  | false => exact Nat.lt_of_not_le (of_decide_eq_false off)

/-- A judgment brings the pressure in step with the free count, whatever it was. -/
theorem pressureOk_judgePressure (s : State) : PressureOk (judgePressure s) := by
  constructor
  · rw [judgePressure_bsc]
    dsimp only
    exact le_of_pressureAfter
  · rw [judgePressure_bsc]
    dsimp only
    exact lt_of_pressureAfter

theorem PressureOk.releaseSlot {s : State} (h : PressureOk s) (slot : Nat) : PressureOk (releaseSlot slot s) := by
  rcases releaseSlot_cases slot s with same | freed | ⟨b, lowered⟩
  · rw [same]; exact h
  · rw [freed]; exact pressureOk_judgePressure _
  · rw [lowered]; exact h.congr rfl rfl rfl

theorem PressureOk.sealBand {s : State} (h : PressureOk s) (k : Lane) (stop : Bool) : PressureOk (sealBand k stop s) := by
  unfold Machine.sealBand
  split
  · exact h
  · split
    · exact h.congr rfl rfl rfl
    · dsimp only
      split
      · exact pressureOk_judgePressure _
      · exact h.congr (by rw [putBand, State.withBsc_bsc, matchBand_bsc]; rfl) (by rw [putBand, State.withBsc_bsc, matchBand_bsc]; rfl)
          (by rw [putBand, State.withBsc_bsc, matchBand_bsc]; rfl)

theorem PressureOk.extendBand {s : State} (h : PressureOk s) (slot : Nat) (b : Band) (x : Placement) :
    PressureOk (extendBand slot b x s) := by
  unfold Machine.extendBand
  extract_lets t
  have written : PressureOk t := by
    unfold t
    split <;> exact h.congr rfl rfl rfl
  exact iteInduction (motive := PressureOk) (fun _ => written.sealBand _ _) fun _ => written

theorem PressureOk.openBand {s : State} (h : PressureOk s) (x : Placement) : PressureOk (openBand x s) := by
  unfold Machine.openBand
  split
  · exact h.congr rfl rfl rfl
  · exact (pressureOk_judgePressure _).extendBand _ _ x

theorem PressureOk.place {s : State} (h : PressureOk s) (x : Placement) : PressureOk (place x s) := by
  have next := (h.sealBand x.lane false).openBand x
  unfold Machine.place
  split
  · exact h.openBand x
  · split
    · exact next
    · exact iteInduction (motive := PressureOk) (fun _ => h.extendBand _ _ x) fun _ => next

/-! ### The failure of a port (R118, R140, R144 to R147) -/

/-- A property of the state that the parts of a failure keep: releases, window records rewritten or erased, the queues, links and counts of
a port, and ADOPT raised. -/
structure FailureKept (P : State → Prop) : Prop where
  releases : ∀ {s} slot, P s → P (releaseSlot slot s)
  windows : ∀ {s} ws, (∀ id, (tableGet ws id).isSome = true → (s.window id).isSome = true) → P s → P (s.withWindows ws)
  ports : ∀ {s} p linkUp essential sheddable outbound stall dropped responses notice, P s → P (s.setPort p { s.port p with
    linkUp := linkUp, essential := essential, sheddable := sheddable, outbound := outbound, stall := stall, dropped := dropped
    responses := responses, notice := notice })
  adopts : ∀ {s} p, P s → P (raiseAt p .adopt s)

theorem tablePut_isSome {α : Type} {t : List (Nat × α)} {id : Nat} {x : α} (now : tableGet t id = some x) (y : α) (other : Nat)
    (some : (tableGet (tablePut t id y) other).isSome = true) : (tableGet t other).isSome = true := by
  rw [tableGet_put] at some
  split at some
  next own => rw [own, now]; rfl
  · exact some

theorem tableErase_isSome {α : Type} {t : List (Nat × α)} {id : Nat} (other : Nat)
    (some : (tableGet (tableErase t id) other).isSome = true) : (tableGet t other).isSome = true := by
  rw [tableGet_erase] at some
  split at some
  · cases some
  · exact some

theorem foldl_keeps {P : State → Prop} {α : Type} {f : State → α → State} (h : ∀ {s} x, P s → P (f s x)) (l : List α) :
    ∀ {s}, P s → P (l.foldl f s) := by
  induction l with
  | nil => exact id
  | cons x l ih => exact fun p => ih (h x p)

namespace FailureKept

variable {P : State → Prop}

theorem setQueue (k : FailureKept P) {s : State} (h : P s) (p : Port) (cls : DeliveryClass) (q : List Entry) :
    P (s.setPort p ((s.port p).setQueue cls q)) := by
  cases cls with
  | essential => exact k.ports p _ q _ _ _ _ _ _ h
  | sheddable => exact k.ports p _ _ q _ _ _ _ _ h

theorem withdraw (k : FailureKept P) (id : Nat) (cls : DeliveryClass) {s : State} (p : Port) (h : P s) : P (withdraw id cls s p) :=
  foldl_keeps (f := fun s (e : Entry) => releaseSlot e.slot s) (fun e => k.releases e.slot) _ (k.setQueue h p cls _)

theorem retireWindow (k : FailureKept P) {s : State} {id : Nat} {w : Window} (now : s.window id = some w) (h : P s) :
    P (retireWindow id w s) := by
  unfold Machine.retireWindow
  split
  · exact k.windows _ tableErase_isSome h
  · exact k.windows _ (tablePut_isSome now _) h

theorem closeWindow (k : FailureKept P) {s : State} (id : Nat) (h : P s) : P (closeWindow id s) := by
  cases now : s.window id with
  | none => rw [closeWindow_free now]; exact h
  | some w =>
    rw [closeWindow_eq now]
    have withdrawn : P (withdrawAll id w.cls s) := foldl_keeps (f := Machine.withdraw id w.cls) (k.withdraw id w.cls) allPorts h
    exact k.retireWindow (by rw [State.window, withdrawAll_windows]; exact now) withdrawn

theorem markLost (k : FailureKept P) {s : State} (id : Nat) (h : P s) : P (markLost id s) := by
  unfold Machine.markLost
  split
  · exact h
  next w now => exact iteInduction (motive := P) (fun _ => k.windows _ (tablePut_isSome now _) h) fun _ => h

theorem countDropped (k : FailureKept P) (p : Port) {s : State} (h : P s) : P (countDropped p s) := k.ports p _ _ _ _ _ _ _ _ h

theorem loseEntry (k : FailureKept P) (p : Port) {s : State} (e : Entry) (h : P s) : P (loseEntry p s e) :=
  k.countDropped p (k.markLost e.window (k.releases e.slot h))

theorem moveQueue (k : FailureKept P) (p st : Port) (cls : DeliveryClass) {s : State} (h : P s) : P (moveQueue p st cls s) :=
  foldl_keeps (f := Machine.loseEntry p) (k.loseEntry p) _ (k.setQueue (k.setQueue h p cls []) st cls _)

theorem adoptWindows (k : FailureKept P) (p st : Port) {s : State} (h : P s) : P (adoptWindows p st s) := by
  refine k.windows _ (fun id some => ?_) h
  have adopted : ((Machine.adoptWindows p st s).window id).isSome = true := some
  rwa [adoptWindows_window, Option.isSome_map] at adopted

theorem failPort (k : FailureKept P) (p : Port) (linkLoss : Bool) {s : State} (h : P s) : P (failPort p linkLoss s) := by
  unfold Machine.failPort
  split
  · exact k.adopts _ (k.moveQueue p _ .sheddable (k.moveQueue p _ .essential (k.adoptWindows p _ h)))
  · have lost : ∀ q : List Entry, P (q.foldl (Machine.loseEntry p) (s.setPort p { s.port p with essential := [], sheddable := [] })) :=
      fun q => foldl_keeps (f := Machine.loseEntry p) (k.loseEntry p) q (k.ports p _ [] [] _ _ _ _ _ h)
    unfold releaseAll
    exact iteInduction (motive := P) (fun _ => foldl_keeps (f := fun s id => Machine.closeWindow id s) k.closeWindow _ (lost _))
      fun _ => lost _

theorem closingStripEnd (k : FailureKept P) {s : State} (id : Nat) (h : P s) : P (closingStripEnd id s) := by
  unfold Machine.closingStripEnd
  split
  · exact h
  next w now =>
    split
    · exact h
    · exact iteInduction (motive := P) (fun _ => k.windows _ tableErase_isSome h) fun _ => k.windows _ (tablePut_isSome now _) h

theorem abortStrip (k : FailureKept P) (p : Port) {s : State} (h : P s) : P (abortStrip p s) := by
  unfold Machine.abortStrip
  split
  next e _ _ =>
    have released := k.releases e.slot h
    dsimp only
    split
    · exact released
    · exact iteInduction (motive := P) (fun _ => k.countDropped p (k.markLost e.window released)) fun _ =>
        k.closingStripEnd e.window released
  all_goals exact h

theorem cutLink (k : FailureKept P) (p : Port) {s : State} (h : P s) : P (cutLink p s) :=
  k.ports p _ _ _ none _ _ [] none (k.abortStrip p (k.ports p false _ _ _ none _ _ _ h))

end FailureKept

/-! ### Every command -/

/-- A property of the store's record that seals, placements, releases, a record of SET_STORE and a reset keep. -/
structure BandsKept (P : State → Prop) : Prop where
  congr : ∀ {s t}, P s → t.bsc = s.bsc → P t
  seals : ∀ {s} k stop, P s → P (sealBand k stop s)
  places : ∀ {s} x, P s → P (place x s)
  releases : ∀ {s} slot, P s → P (releaseSlot slot s)
  stores : ∀ {s} f, P s → P (setStore f s).1
  initial : ∀ {s}, s.bsc = BandStore.initial → P s

namespace BandsKept

variable {P : State → Prop}

theorem failure (k : BandsKept P) : FailureKept P where
  releases := k.releases
  windows := fun _ _ h => k.congr h rfl
  ports := fun _ _ _ _ _ _ _ _ _ h => k.congr h rfl
  adopts := fun _ h => k.congr h rfl

theorem agree (k : BandsKept P) {A : List Part} {s t : State} (agree : State.Agree A s t) (h : P s) (spared : .bsc ∉ A := by decide) :
    P t := k.congr h (agree.bsc spared)

theorem work (k : BandsKept P) {s t : State} (work : StoreWork s t) : P s → P t := by
  induction work with
  | quiet bsc _ _ _ => exact fun h => k.congr h bsc
  | seals lane stop s => exact k.seals lane stop
  | places x s => exact k.places x
  | trans _ _ first second => exact second ∘ first

theorem settled (k : BandsKept P) {s : State} (h : P s) : P (settle s) := k.congr h (settle_bsc s)

theorem setPort (k : BandsKept P) {s : State} (h : P s) (p : Port) (c : ConsumerPort) : P (s.setPort p c) := k.congr h rfl

theorem raiseAt (k : BandsKept P) {s : State} (h : P s) (p : Port) (kind : NoticeKind) : P (raiseAt p kind s) := k.congr h rfl

theorem takeRequest (k : BandsKept P) {s t : State} {p : Port} {kind : Option RequestKind} {act : RequestFrame → State → State × Answer}
    (keeps : ActsKeep P act) (h : P s) (e : takeRequest p kind act s = .next t) : P t := by
  unfold Machine.takeRequest at e
  split at e
  · cases e; exact h
  next f rest _ =>
    split at e
    · cases e
      exact k.settled (k.setPort (keeps f _ (k.setPort h p _)) p _)
    · cases e; exact h

theorem windowClose (k : BandsKept P) (p : Port) (id : Nat) (s : State) (h : P s) : P (windowClose p id s).1 := by
  unfold Machine.windowClose
  split
  · exact h
  · exact k.failure.closeWindow id h

theorem execStopTimerExpiry (k : BandsKept P) {s t : State} (h : P s) (e : execStopTimerExpiry s = .next t) : P t := by
  unfold Machine.execStopTimerExpiry at e
  split at e
  · cases e; exact h
  next due _ =>
    cases e
    exact k.settled (k.work ((stopSeal_work _).trans (.raiseWhere _ _ _)) (k.congr h rfl))

theorem execFrameCompletion (k : BandsKept P) {s t : State} {p : Port} (h : P s) (e : execFrameCompletion p s = .next t) : P t := by
  unfold Machine.execFrameCompletion at e
  split at e
  · split at e
    · cases e; exact k.initial rfl
    · cases e; exact k.settled (k.congr h rfl)
  · cases e; exact k.settled (k.congr h rfl)
  all_goals cases e; exact h

theorem execStripCompletion (k : BandsKept P) {s t : State} {p : Port} (h : P s) (e : execStripCompletion p s = .next t) : P t := by
  unfold Machine.execStripCompletion at e
  split at e
  next x _ _ =>
    cases e
    exact k.settled (k.agree (A := [.windows]) (closingStripEnd_agree x.window _ (by decide)) (k.releases x.slot (k.congr h rfl)))
  all_goals cases e; exact h

theorem execStallTimerExpiry (k : BandsKept P) {s t : State} {p : Port} (h : P s) (e : execStallTimerExpiry p s = .next t) : P t := by
  unfold Machine.execStallTimerExpiry at e
  split at e
  · cases e; exact k.settled (k.failure.failPort p false (k.raiseAt (k.setPort (k.congr (t := s.clockAt _) h rfl) p _) p _))
  · cases e; exact h

theorem execSteeringLinkLoss (k : BandsKept P) {s t : State} {p : Port} (h : P s) (e : execSteeringLinkLoss p s = .next t) : P t := by
  have lost : P (settle (dropClaim p ((failPort p true (cutLink p s)).setPort p (downPort ((failPort p true (cutLink p s)).port p))))) :=
    k.settled (k.agree (dropClaim_agree p _) (k.setPort (k.failure.failPort p true (k.failure.cutLink p h)) p _))
  unfold Machine.execSteeringLinkLoss at e
  split at e
  · cases e; exact h
  all_goals
    split at e
    · cases e; exact k.initial rfl
    · cases e; exact lost

/-- Every command keeps such a property: one whose frame spares the store leaves its record as it is. -/
theorem exec (k : BandsKept P) {c : Instr} {s t : State} (h : P s) (e : exec c s = .next t) : P t := by
  by_cases spared : Part.bsc ∉ touched c
  · obtain ⟨u, hu, agree⟩ := commandFrames c s
    rw [hu] at e
    cases e
    exact k.agree agree h spared
  · cases c with
    | powerOn inputs => cases e; exact k.initial rfl
    | encoderCount inputs => cases e; exact k.settled (k.work (encoderChange_work inputs s) h)
    | stopTimerExpiry => exact k.execStopTimerExpiry h e
    | lineArrival lane frame => cases e; exact k.settled (k.work (arriveLine_work lane frame s) h)
    | laneLinkLoss lane => cases e; exact k.settled (k.work (loseLaneLink_work lane s) h)
    | setStore p => exact k.takeRequest (.asHolder p (.withFields fun f _ => k.stores f)) h e
    | windowClose p => exact k.takeRequest (.withFields (k.windowClose p)) h e
    | frameCompletion p => exact k.execFrameCompletion h e
    | stripCompletion p => exact k.execStripCompletion h e
    | stallTimerExpiry p => exact k.execStallTimerExpiry h e
    | steeringLinkLoss p => exact k.execSteeringLinkLoss h e
    | _ => exact absurd (by simp [touched]) spared

theorem step (k : BandsKept P) {s t : State} (h : P s) (e : step s = .next t) : P t := by
  unfold Machine.step at e
  split at e
  · cases e; exact k.congr h rfl
  next c rest _ => exact k.exec (k.congr (t := s.withPending rest) h rfl) e

end BandsKept

theorem SlotsOk.setStore {s : State} (h : SlotsOk s) (f : StoreFields) : SlotsOk (setStore f s).1 := by
  have stored : SlotsOk ((s.withShared { s.shared with stallTimeout := f.stallTimeout, standby := f.standby }).withBsc
      { s.bsc with reserve := f.reserve }) := (slotsOk_iff _).mpr (h.split.congr rfl rfl rfl)
  unfold Machine.setStore
  split
  · exact iteInduction (motive := SlotsOk) (fun _ => stored.judgePressure) fun _ => stored
  · exact h

theorem PressureOk.setStore {s : State} (h : PressureOk s) (f : StoreFields) : PressureOk (setStore f s).1 := by
  unfold Machine.setStore
  split
  · dsimp only
    split
    · exact pressureOk_judgePressure _
    next same => exact h.congr rfl rfl (not_not.mp same)
  · exact h

theorem slotsOk_kept : BandsKept SlotsOk where
  congr := fun h bsc => h.congr bsc
  seals := fun k stop h => h.sealBand k stop
  places := fun x h => h.place x
  releases := fun slot h => h.releaseSlot slot
  stores := fun f h => h.setStore f
  initial := slotsOk_reset.congr

theorem pressureOk_kept : BandsKept PressureOk where
  congr := fun h bsc => h.congr (by rw [bsc]) (by rw [bsc]) (by rw [bsc])
  seals := fun k stop h => h.sealBand k stop
  places := fun x h => h.place x
  releases := fun slot h => h.releaseSlot slot
  stores := fun f h => h.setStore f
  initial := fun bsc => pressureOk_reset.congr (by rw [bsc]; rfl) (by rw [bsc]; rfl) (by rw [bsc]; rfl)

/-- Settles O9: only a seal, a placement and a release change the state of a slot, each of the free list and the table together, and pressure
is judged wherever the free count or the reserve changes. -/
theorem stepKeepsSlots : Obligations.StepKeepsSlots := by
  unfold Obligations.StepKeepsSlots
  exact fun _ _ e => ⟨fun h => slotsOk_kept.step h e, fun h => pressureOk_kept.step h e⟩

end Sys2Proof.Machine
end

section
/-!
SUPPORT AND PROOF. The holder counts (R106, R107): entries that have left the ports and are not released yet, the steps of the delivery side,
and every command.
-/

namespace Sys2Proof.Machine

/-! ### The entries that name a slot, and the slot's holder count -/

/-- The number of entries of a list that name a slot. -/
def namedIn (es : List Entry) (slot : Nat) : Nat := es.countP fun e => decide (e.slot = slot)

@[simp] theorem namedIn_nil (slot : Nat) : namedIn [] slot = 0 := rfl

theorem namedIn_append (es fs : List Entry) (slot : Nat) : namedIn (es ++ fs) slot = namedIn es slot + namedIn fs slot :=
  List.countP_append

theorem namedIn_cons (e : Entry) (es : List Entry) (slot : Nat) :
    namedIn (e :: es) slot = namedIn es slot + if e.slot = slot then 1 else 0 := by simp [namedIn, List.countP_cons]

theorem namedIn_reverse (es : List Entry) (slot : Nat) : namedIn es.reverse slot = namedIn es slot := List.countP_reverse

/-- What the state of a slot says about the number of entries that name it (R107). -/
def Holds (band : Option Band) (n : Nat) : Prop :=
  match band with
  | none => n = 0
  | some b =>
    match b.sealing with
    | none => n = 0
    | some r => n = r.holders ∧ 1 ≤ r.holders

theorem holds_filling {b : Band} {n : Nat} (filling : b.sealing = none) : Holds (some b) n ↔ n = 0 := by
  unfold Holds
  dsimp only
  rw [filling]

theorem holds_held {b : Band} {r : SealRecord} {n : Nat} (held : b.sealing = some r) :
    Holds (some b) n ↔ n = r.holders ∧ 1 ≤ r.holders := by
  unfold Holds
  dsimp only
  rw [held]

/-- The holder counts while some entries have left the ports and are not released yet. -/
def HoldersWith (es : List Entry) (s : State) : Prop := ∀ slot, Holds (s.band slot) (s.naming slot + namedIn es slot)

theorem holdersOk_iff (s : State) : HoldersOk s ↔ HoldersWith [] s := by
  constructor
  · intro h slot
    cases band : s.band slot with
    | none => exact h.free slot band
    | some b =>
      cases sealing : b.sealing with
      | none => exact (holds_filling sealing).mpr (h.filling slot b band sealing)
      | some r => exact (holds_held sealing).mpr (h.held slot b r band sealing)
  · intro h
    exact ⟨fun slot b r band held => (holds_held held).mp (band ▸ h slot),
      fun slot b band filling => (holds_filling filling).mp (band ▸ h slot), fun slot band => by
        have empty := h slot
        rw [band] at empty
        exact empty⟩

theorem HoldersOk.counted {s : State} (h : HoldersOk s) : HoldersWith [] s := (holdersOk_iff s).mp h

/-- The records of the bands and the entries of the ports, whatever else changes. -/
structure EntriesKept (s t : State) : Prop where
  bands : t.bsc.bands = s.bsc.bands
  entries : ∀ p slot, namedIn (t.port p).entries slot = namedIn (s.port p).entries slot

theorem HoldersWith.congr {es fs : List Entry} {s t : State} (h : HoldersWith es s) (band : ∀ slot, t.band slot = s.band slot)
    (count : ∀ slot, t.naming slot + namedIn fs slot = s.naming slot + namedIn es slot) : HoldersWith fs t := fun slot => by
  rw [band, count]
  exact h slot

theorem State.naming_sum (s : State) (slot : Nat) : s.naming slot = (allPorts.map fun p => namedIn (s.port p).entries slot).sum :=
  State.naming_eq s slot

theorem EntriesKept.naming {s t : State} (k : EntriesKept s t) (slot : Nat) : t.naming slot = s.naming slot := by
  simp only [State.naming_sum, k.entries]

theorem HoldersWith.kept {es : List Entry} {s t : State} (h : HoldersWith es s) (k : EntriesKept s t) : HoldersWith es t :=
  h.congr (fun slot => congrArg (tableGet · slot) k.bands) fun slot => by rw [k.naming]

theorem HoldersOk.kept {s t : State} (h : HoldersOk s) (k : EntriesKept s t) : HoldersOk t := (holdersOk_iff t).mpr (h.counted.kept k)

namespace EntriesKept

variable {s t u : State}

theorem refl (s : State) : EntriesKept s s := ⟨rfl, fun _ _ => rfl⟩

theorem trans (h : EntriesKept s t) (g : EntriesKept t u) : EntriesKept s u :=
  ⟨g.bands.trans h.bands, fun p slot => (g.entries p slot).trans (h.entries p slot)⟩

theorem ite {c : Prop} [Decidable c] (h : EntriesKept s t) (g : EntriesKept s u) : EntriesKept s (if c then t else u) :=
  iteInduction (motive := EntriesKept s) (fun _ => h) fun _ => g

theorem of_counts (bands : t.bsc.bands = s.bsc.bands) (counts : OnlyCounts s t) : EntriesKept s t := ⟨bands, fun p slot => by
  obtain ⟨_, _, _, port⟩ := counts p
  rw [port]
  rfl⟩

theorem of_raises (bands : t.bsc.bands = s.bsc.bands) (raises : OnlyRaises s t) : EntriesKept s t := of_counts bands raises.counts

/-- An operation whose frame spares the store, and that raises notices alone. -/
theorem of_agree {A : List Part} (agree : State.Agree A s t) (raises : OnlyRaises s t) (bsc : .bsc ∉ A := by decide) : EntriesKept s t :=
  of_raises (by rw [agree.bsc bsc]) raises

theorem of_ports (bands : t.bsc.bands = s.bsc.bands) (ports : t.ports = s.ports) : EntriesKept s t := of_raises bands (.of_ports ports)

theorem setPort {p : Port} {c : ConsumerPort} (entries : c.entries = (s.port p).entries) : EntriesKept s (s.setPort p c) :=
  ⟨rfl, fun q slot => by
    rw [State.port_setPort]
    split
    next own => rw [own, entries]
    · rfl⟩

end EntriesKept

/-- A port replaced: the entries that it held are at it or in hand. -/
theorem HoldersWith.setPort {es fs : List Entry} {s : State} (h : HoldersWith es s) {p : Port} {c : ConsumerPort}
    (moved : ∀ slot, namedIn c.entries slot + namedIn fs slot = namedIn (s.port p).entries slot + namedIn es slot) :
    HoldersWith fs (s.setPort p c) :=
  h.congr (fun _ => rfl) fun slot => by
    have counts := State.naming_setPort s p c slot
    have own := moved slot
    unfold namedIn at own ⊢
    omega

/-- The strip that a port sends, if it sends one. -/
def ConsumerPort.strip (c : ConsumerPort) : List Entry :=
  match c.outbound with
  | some (.strip e _) => [e]
  | some (.response _) => []
  | some (.notice _) => []
  | none => []

theorem ConsumerPort.entries_eq (c : ConsumerPort) : c.entries = c.essential ++ c.sheddable ++ c.strip := rfl

/-! ### Releases (R107) -/

theorem OnlyRaises.naming {s t : State} (h : OnlyRaises s t) (slot : Nat) : t.naming slot = s.naming slot :=
  State.naming_congr (fun q => by
    obtain ⟨_, _, port⟩ := h.kept q
    rw [port]
    rfl) slot

/-- A release takes one holder from the slot that the entry names (R107). -/
theorem Holds.release {e : Entry} {slot n : Nat} {s : State} (h : Holds (s.band slot) (n + if e.slot = slot then 1 else 0)) :
    Holds ((releaseSlot e.slot s).band slot) n := by
  by_cases own : slot = e.slot
  · subst own
    rw [if_pos rfl] at h
    cases band : s.band e.slot with
    | none => rw [band] at h; cases h
    | some b =>
      rw [band] at h
      cases held : b.sealing with
      | none => cases (holds_filling held).mp h
      | some r =>
        obtain ⟨count, _⟩ := (holds_held held).mp h
        obtain ⟨last, lowers, _⟩ := releaseSlot_spec e.slot s
        by_cases one : r.holders ≤ 1
        · rw [last b r band held one, freeSlot_band, if_pos rfl]
          show n = 0
          omega
        · rw [lowers b r band held (by omega)]
          have now : (putBand e.slot { b with sealing := some { r with holders := r.holders - 1 } } s).band e.slot = _ :=
            (tableGet_put s.bsc.bands e.slot e.slot _).trans (if_pos rfl)
          rw [now]
          refine (holds_held rfl).mpr ?_
          dsimp only
          omega
  · rw [if_neg (Ne.symm own)] at h
    rw [releaseSlot_band_ne own]
    exact h

theorem HoldersWith.release {e : Entry} {es : List Entry} {s : State} (h : HoldersWith (e :: es) s) :
    HoldersWith es (releaseSlot e.slot s) := fun slot => by
  have counted := h slot
  rw [namedIn_cons, ← Nat.add_assoc] at counted
  rw [(releaseSlot_raises e.slot s).naming]
  exact counted.release

theorem HoldersWith.releaseEntries {es : List Entry} : ∀ {s : State}, HoldersWith es s → HoldersWith [] (releaseEntries es s) := by
  induction es with
  | nil => exact id
  | cons e es ih => exact fun h => ih h.release

theorem countDropped_kept (p : Port) (s : State) : EntriesKept s (countDropped p s) := .setPort rfl

/-- An entry that is lost is released, and its loss counted (R146, R147). -/
theorem HoldersWith.loseEntry {p : Port} {e : Entry} {es : List Entry} {s : State} (h : HoldersWith (e :: es) s) :
    HoldersWith es (loseEntry p s e) := by
  have agree := markLost_agree e.window (releaseSlot e.slot s)
  exact (h.release.kept (.of_ports (by rw [agree.bsc (by decide)]) (agree.ports (by decide)))).kept (countDropped_kept p _)

theorem HoldersWith.loseEntries (p : Port) {es : List Entry} : ∀ {s : State}, HoldersWith es s →
    HoldersWith [] (es.foldl (Machine.loseEntry p) s) := by
  induction es with
  | nil => exact id
  | cons e es ih => exact fun h => ih h.loseEntry

/-! ### Closures (R118) -/

theorem HoldersOk.withdraw {s : State} (h : HoldersOk s) (id : Nat) (cls : DeliveryClass) (p : Port) : HoldersOk (withdraw id cls s p) := by
  have taken : HoldersWith (((s.port p).queue cls).filter fun e => decide (e.window = id)) (s.setPort p ((s.port p).without id cls)) :=
    h.counted.setPort fun slot => (without_count (s.port p) id cls fun e => decide (e.slot = slot)).symm
  exact (holdersOk_iff _).mpr taken.releaseEntries

theorem HoldersOk.foldl {α : Type} {f : State → α → State} (h : ∀ {s} x, HoldersOk s → HoldersOk (f s x)) (l : List α) :
    ∀ {s}, HoldersOk s → HoldersOk (l.foldl f s) := by
  induction l with
  | nil => exact id
  | cons x l ih => exact fun p => ih (h x p)

theorem HoldersOk.closeWindow {s : State} (h : HoldersOk s) (id : Nat) : HoldersOk (closeWindow id s) := by
  cases now : s.window id with
  | none => rw [closeWindow_free now]; exact h
  | some w =>
    rw [closeWindow_eq now]
    have agree := retireWindow_agree id w (withdrawAll id w.cls s)
    have withdrawn : HoldersOk (withdrawAll id w.cls s) :=
      HoldersOk.foldl (f := Machine.withdraw id w.cls) (fun p h => h.withdraw id w.cls p) allPorts h
    exact withdrawn.kept (.of_ports (by rw [agree.bsc (by decide)]) (agree.ports (by decide)))

/-! ### The failure of a port (R144 to R147) -/

theorem entries_setQueue (c : ConsumerPort) (cls : DeliveryClass) (q : List Entry) (slot : Nat) :
    namedIn (c.setQueue cls q).entries slot + namedIn (c.queue cls) slot = namedIn c.entries slot + namedIn q slot := by
  cases cls
  all_goals
    simp only [ConsumerPort.entries, ConsumerPort.setQueue, ConsumerPort.queue, namedIn_append]
    omega

/-- The queue of a failed port leaves it; what has room joins the standby's, and the rest is released from the newest on (R146). -/
theorem HoldersOk.moveQueue {s : State} (h : HoldersOk s) (p st : Port) (cls : DeliveryClass) : HoldersOk (moveQueue p st cls s) := by
  unfold Machine.moveQueue
  extract_lets q room left moved
  have leaves : HoldersWith q left := h.counted.setPort fun slot => by
    have counts := entries_setQueue (s.port p) cls [] slot
    rw [namedIn_nil] at counts ⊢
    exact counts
  have joins : HoldersWith (q.drop room).reverse moved := leaves.setPort fun slot => by
    have counts := entries_setQueue (left.port st) cls ((left.port st).queue cls ++ q.take room) slot
    have parts := namedIn_append (q.take room) (q.drop room) slot
    rw [List.take_append_drop] at parts
    rw [namedIn_append] at counts
    rw [namedIn_reverse]
    omega
  exact (holdersOk_iff _).mpr (joins.loseEntries p)

theorem raiseAt_kept (p : Port) (k : NoticeKind) (s : State) : EntriesKept s (raiseAt p k s) := .of_raises rfl (raiseWhere_raises _ _ _)

theorem HoldersOk.failPort {s : State} (h : HoldersOk s) (p : Port) (linkLoss : Bool) : HoldersOk (failPort p linkLoss s) := by
  unfold Machine.failPort
  split
  next st _ =>
    have adopted : HoldersOk (adoptWindows p st s) := h.kept (.of_ports rfl rfl)
    exact ((adopted.moveQueue p st .essential).moveQueue p st .sheddable).kept (raiseAt_kept _ _ _)
  · unfold releaseAll
    extract_lets q c lost
    have left : HoldersWith q (s.setPort p { s.port p with essential := [], sheddable := [] }) := h.counted.setPort fun slot => by
      simp only [ConsumerPort.entries_eq, ConsumerPort.strip, q, namedIn_append, namedIn_nil]
      omega
    have released : HoldersOk lost := (holdersOk_iff _).mpr (left.loseEntries p)
    exact iteInduction (motive := HoldersOk)
      (fun _ => HoldersOk.foldl (f := fun s id => Machine.closeWindow id s) (fun id h => h.closeWindow id) _ released) fun _ => released

theorem closingStripEnd_kept (id : Nat) (s : State) : EntriesKept s (closingStripEnd id s) :=
  have agree := closingStripEnd_agree (A := [.windows]) id s (by decide)
  .of_ports (by rw [agree.bsc (by decide)]) (agree.ports (by decide))

/-- The abort of a strip in flight: its slot released, and the entries of the ports as they were (R140). -/
theorem abortStrip_sent {p : Port} {e : Entry} {f : StripHeader} {s : State} (sends : (s.port p).outbound = some (.strip e f)) :
    EntriesKept (releaseSlot e.slot s) (abortStrip p s) := by
  unfold abortStrip
  rw [sends]
  dsimp only
  split
  · exact .refl _
  · have agree := markLost_agree e.window (releaseSlot e.slot s)
    exact .ite ((EntriesKept.of_ports (by rw [agree.bsc (by decide)]) (agree.ports (by decide))).trans (countDropped_kept p _))
      (closingStripEnd_kept _ _)

theorem abortStrip_silent {p : Port} {s : State} (silent : (s.port p).strip = []) : abortStrip p s = s := by
  unfold abortStrip
  unfold ConsumerPort.strip at silent
  split
  next sends => rw [sends] at silent; cases silent
  all_goals rfl

theorem strip_cases (c : ConsumerPort) : c.strip = [] ∨ ∃ e f, c.outbound = some (.strip e f) ∧ c.strip = [e] := by
  unfold ConsumerPort.strip
  split
  next e f _ => exact .inr ⟨e, f, ‹_›, rfl⟩
  all_goals exact .inl rfl

/-- A link that is cut: the strip in flight, if there is one, is released and is no entry of the port any more (R140, R148). -/
theorem HoldersOk.cutLink {s : State} (h : HoldersOk s) (p : Port) : HoldersOk (cutLink p s) := by
  set lost := s.setPort p { s.port p with linkUp := false, stall := none } with unplug
  have unplugged : HoldersOk lost := h.kept (.setPort rfl)
  set aborted := abortStrip p lost with abort
  set c : ConsumerPort := { aborted.port p with outbound := none, responses := [], notice := none } with idle
  show HoldersOk (aborted.setPort p c)
  have without : ∀ slot, namedIn c.entries slot + namedIn (aborted.port p).strip slot = namedIn (aborted.port p).entries slot := fun slot => by
    rw [ConsumerPort.entries_eq, ConsumerPort.entries_eq, namedIn_append, namedIn_append _ (aborted.port p).strip]
    rfl
  rcases strip_cases (lost.port p) with silent | ⟨e, f, sends, strip⟩
  · have same : aborted = lost := abortStrip_silent silent
    rw [same] at without ⊢
    exact (holdersOk_iff _).mpr (unplugged.counted.setPort fun slot => by rw [← without, silent]; rfl)
  · have kept : EntriesKept (releaseSlot e.slot lost) aborted := abortStrip_sent sends
    have strip' : (aborted.port p).strip = [e] := by
      obtain ⟨_, _, _, port⟩ := abortStrip_counts p lost p
      rw [abort, port]
      exact strip
    refine (holdersOk_iff _).mpr fun slot => ?_
    have band : (aborted.setPort p c).band slot = (releaseSlot e.slot lost).band slot := congrArg (tableGet · slot) kept.bands
    have count : (aborted.setPort p c).naming slot + (if e.slot = slot then 1 else 0) = lost.naming slot := by
      have moved := State.naming_setPort aborted p c slot
      have own := without slot
      rw [kept.naming, (releaseSlot_raises e.slot lost).naming] at moved
      rw [strip', namedIn_cons, namedIn_nil] at own
      unfold namedIn at own
      omega
    rw [band]
    refine Holds.release ?_
    have counted := unplugged.counted slot
    rw [← count] at counted
    exact counted

/-! ### The end of an event (R135, R137) -/

/-- What an arbiter can do: nothing, a response or notice frame begun on an idle link, or the begin of a strip (R135). -/
theorem arbitrate_cases (s : State) (p : Port) :
    arbitrate s p = s
    ∨ ((s.port p).outbound = none ∧ ∃ responses notice f, (∀ e h, f ≠ OutFrame.strip e h)
      ∧ arbitrate s p = s.setPort p { s.port p with responses := responses, notice := notice, outbound := some f })
    ∨ (s.port p).outbound = none ∧ (s.port p).responses = [] ∧ (s.port p).notice = none ∧ (s.port p).state = .live
      ∧ 1 ≤ (s.port p).credit ∧ ∃ e, (s.port p).nextEntry = some e ∧ arbitrate s p = beginStrip p e s := by
  unfold arbitrate
  dsimp only
  split
  · exact .inl rfl
  · exact .inl rfl
  next idle _ =>
    split
    next r rest _ => exact .inr (.inl ⟨idle, rest, _, .response r, fun _ _ => nofun, rfl⟩)
    next kinds _ _ => exact .inr (.inl ⟨idle, [], none, .notice kinds, fun _ _ => nofun, by simp [*]⟩)
    next responses notice =>
      split
      · exact .inl rfl
      next e next =>
        split
        next able => exact .inr (.inr ⟨idle, responses, notice, able.1, able.2, e, next, rfl⟩)
        · exact .inl rfl

/-- What the begin of a strip comes to: nothing, or the window's record numbered on and the strip on the link (R137, log 22). -/
theorem beginStrip_cases (p : Port) (e : Entry) (s : State) :
    beginStrip p e s = s
    ∨ ∃ w b r, s.window e.window = some w ∧ s.band e.slot = some b ∧ b.sealing = some r
      ∧ beginStrip p e s = (putWindow e.window w.begun s).setPort p { (s.port p).dropEntry with
          credit := (s.port p).dropEntry.credit - 1, sent := (s.port p).dropEntry.sent + 1
          outbound := some (.strip e (stripHeader e w b r)) } := by
  unfold beginStrip
  split
  next w b window band =>
    split
    · exact .inl rfl
    next r held => exact .inr ⟨w, b, r, window, band, held, rfl⟩
  · exact .inl rfl

/-- The entry of a strip leaves its queue for the link. -/
theorem dropEntry_entries {c : ConsumerPort} {e : Entry} (next : c.nextEntry = some e) (slot : Nat) :
    namedIn (c.dropEntry.essential ++ c.dropEntry.sheddable ++ [e]) slot = namedIn (c.essential ++ c.sheddable) slot := by
  unfold ConsumerPort.dropEntry
  unfold ConsumerPort.nextEntry at next
  split
  next x q essential =>
    rw [essential] at next
    cases next
    rw [essential]
    simp only [namedIn_append, List.cons_append, namedIn_cons, namedIn_nil]
    omega
  next essential =>
    rw [essential] at next
    obtain ⟨q, sheddable⟩ := List.head?_eq_some_iff.mp next
    rw [essential, sheddable]
    simp only [namedIn_append, namedIn_cons, namedIn_nil, List.tail_cons]
    omega

theorem arbitrate_entriesKept (s : State) (p : Port) : EntriesKept s (arbitrate s p) := by
  have begins : ∀ {c : ConsumerPort}, (∀ slot, namedIn c.entries slot = namedIn (s.port p).entries slot) → EntriesKept s (s.setPort p c) :=
    fun same => ⟨rfl, fun q slot => by
      rw [State.port_setPort]
      split
      next own => rw [own]; exact same slot
      · rfl⟩
  rcases arbitrate_cases s p with same | ⟨idle, _, _, f, frame, begun⟩ | ⟨idle, _, _, _, _, e, next, begun⟩
  · rw [same]; exact .refl s
  · rw [begun]
    refine begins fun slot => ?_
    rw [ConsumerPort.entries_eq, ConsumerPort.entries_eq, ConsumerPort.strip, ConsumerPort.strip, idle]
    cases f with
    | strip e h => exact absurd rfl (frame e h)
    | response r => rfl
    | notice kinds => rfl
  · rw [begun]
    rcases beginStrip_cases p e s with same | ⟨w, b, r, _, _, _, begun⟩
    · rw [same]; exact .refl s
    · rw [begun]
      refine (EntriesKept.of_ports rfl rfl : EntriesKept s (putWindow e.window w.begun s)).trans ?_
      refine ⟨rfl, fun q slot => ?_⟩
      rw [State.port_setPort]
      split
      next own =>
        subst own
        have moved := dropEntry_entries next slot
        have silent : (s.port q).strip = [] := by rw [ConsumerPort.strip, idle]
        rw [show (putWindow e.window w.begun s).port q = s.port q from rfl, ConsumerPort.entries_eq (s.port q), silent, List.append_nil, ← moved]
        rfl
      · rfl

theorem settle_entriesKept (s : State) : EntriesKept s (settle s) := by
  have fold : ∀ (ps : List Port) (s : State), EntriesKept s (ps.foldl arbitrate s) := by
    intro ps
    induction ps with
    | nil => exact .refl
    | cons p ps ih => exact fun s => (arbitrate_entriesKept s p).trans (ih _)
  refine (fold allPorts s).trans ⟨rfl, fun p slot => ?_⟩
  rw [settle_port]
  obtain ⟨_, port⟩ := judgeStall_kept (allPorts.foldl arbitrate s) ((allPorts.foldl arbitrate s).port p)
  rw [port]
  rfl

theorem HoldersOk.settle {s : State} (h : HoldersOk s) : HoldersOk (settle s) := h.kept (settle_entriesKept s)

/-! ### Seals and placements (R98, R99, R105, R106) -/

/-- The entries that matching makes name the sealed band's slot (R126). -/
theorem matchWindow_naming (slot other : Nat) (b : Band) (acc : State × Nat) (id : Nat) :
    (matchWindow slot b acc id).1.naming other + (if slot = other then acc.2 else 0)
      = acc.1.naming other + if slot = other then (matchWindow slot b acc id).2 else 0 := by
  unfold matchWindow
  split
  · rfl
  next w now =>
    split
    · split
      · have joined := State.naming_setPort acc.1 w.owner ((acc.1.port w.owner).setQueue (clipEntry slot id w b).cls
          ((acc.1.port w.owner).queue (clipEntry slot id w b).cls ++ [clipEntry slot id w b])) other
        have counts := entries_setQueue (acc.1.port w.owner) (clipEntry slot id w b).cls
          ((acc.1.port w.owner).queue (clipEntry slot id w b).cls ++ [clipEntry slot id w b]) other
        rw [namedIn_append, namedIn_cons, namedIn_nil] at counts
        have own : (clipEntry slot id w b).slot = slot := rfl
        rw [own] at counts
        unfold namedIn at counts
        dsimp only [appendEntry]
        split
        next same => rw [if_pos same] at counts; omega
        next ne => rw [if_neg ne] at counts; omega
      · dsimp only
        have lost : EntriesKept acc.1 (loseMatch id w acc.1) :=
          (EntriesKept.of_ports (s := acc.1) (t := putWindow id { w with gap := true, dropped := w.dropped + 1 } acc.1) rfl rfl).trans
            (countDropped_kept w.owner _)
        rw [lost.naming]
    · rfl

theorem matchBand_naming (slot other : Nat) (b : Band) (s : State) :
    (matchBand slot b s).1.naming other = s.naming other + if slot = other then (matchBand slot b s).2 else 0 := by
  have fold : ∀ (ids : List Nat) (acc : State × Nat), (ids.foldl (matchWindow slot b) acc).1.naming other + (if slot = other then acc.2 else 0)
      = acc.1.naming other + if slot = other then (ids.foldl (matchWindow slot b) acc).2 else 0 := by
    intro ids
    induction ids with
    | nil => exact fun _ => rfl
    | cons id ids ih =>
      intro acc
      have first := matchWindow_naming slot other b acc id
      have rest := ih (matchWindow slot b acc id)
      rw [List.foldl_cons]
      omega
  have all := fold s.windowIds (s, 0)
  rw [ite_self, Nat.add_zero] at all
  exact all

/-- A sealed band is HELD by the entries that its matching made, and its slot is FREE without one (R106). -/
theorem HoldersOk.sealBand {s : State} (slots : SlotsOk s) (h : HoldersOk s) (k : Lane) (stop : Bool) : HoldersOk (sealBand k stop s) := by
  cases filling : s.bsc.filling.get k with
  | none => rw [sealBand_idle stop filling]; exact h
  | some slot =>
    obtain ⟨b, band, _, open_⟩ := (slots.filling k slot).mp filling
    have unnamed := h.filling slot b band open_
    set m := sealMatched k stop slot b s with matched
    have naming : ∀ other, m.1.naming other = s.naming other + if slot = other then m.2 else 0 := fun other =>
      matchBand_naming slot other (sealedBand k stop b s) (sealBegun k s)
    have bands : m.1.bsc.bands = s.bsc.bands := by rw [matched, sealMatched_bsc]
    have band_ne : ∀ other, m.1.band other = s.band other := fun other => congrArg (tableGet · other) bands
    rw [holdersOk_iff, sealBand_eq stop filling band, ← matched]
    split
    next zero =>
      intro other
      have count : (freeSlot slot m.1).naming other = s.naming other := by
        rw [(freeSlot_raises slot m.1).naming, naming, zero, ite_self]
        rfl
      rw [count, freeSlot_band]
      split
      next own => rw [own]; exact unnamed
      · rw [band_ne]; exact h.counted other
    next made =>
      intro other
      set c : Band := { b with sealing := some { sealRecord k stop b s with holders := m.2 } }
      have now : (putBand slot c m.1).band other = if other = slot then some c else m.1.band other := tableGet_put m.1.bsc.bands slot other c
      rw [now, show (putBand slot c m.1).naming other = m.1.naming other from rfl, naming]
      split
      next own =>
        rw [own, if_pos rfl, unnamed]
        exact (holds_held rfl).mpr ⟨by simp, Nat.one_le_iff_ne_zero.mpr made⟩
      next ne =>
        rw [if_neg (Ne.symm ne), Nat.add_zero]
        have old := h.counted other
        rw [← band_ne] at old
        exact old

/-- A filling band is written anew. -/
theorem HoldersOk.putFilling {s t : State} (h : HoldersOk s) {slot : Nat} {b c : Band} (band : s.band slot = some b)
    (before : b.sealing = none) (after : c.sealing = none) (bands : t.bsc.bands = tablePut s.bsc.bands slot c)
    (ports : t.ports = s.ports) : HoldersOk t := by
  refine (holdersOk_iff t).mpr fun other => ?_
  have naming : t.naming other = s.naming other :=
    State.naming_congr (fun p => congrArg (fun ports => (ports.get p).entries) ports) other
  rw [State.band, bands, tableGet_put, naming]
  split
  next own => rw [own]; exact (holds_filling after).mpr (h.filling slot b band before)
  · exact h.counted other

/-- The band written with a line, before a seal at slot line 63: FILLING as before (R95). -/
theorem extendBand_writes (slot : Nat) (b : Band) (x : Placement) (s : State) : ∃ t c, c.lane = b.lane ∧ c.sealing = b.sealing
    ∧ t.bsc = { s.bsc with bands := tablePut s.bsc.bands slot c } ∧ t.ports = s.ports
    ∧ (extendBand slot b x s = t ∨ extendBand slot b x s = sealBand x.lane false t) := by
  unfold extendBand
  extract_lets _ t
  have written : ∃ c, c.lane = b.lane ∧ c.sealing = b.sealing ∧ t.bsc = { s.bsc with bands := tablePut s.bsc.bands slot c }
      ∧ t.ports = s.ports := by
    unfold t
    split
    · exact ⟨{ b with lastIrl := x.irl }, rfl, rfl, rfl, rfl⟩
    next samples _ =>
      exact ⟨{ b with lastIrl := x.irl, presence := b.presence ++ [(x.irl, (samples.take b.width).length)] }, rfl, rfl, rfl, rfl⟩
  obtain ⟨c, lane, sealing, bsc, ports⟩ := written
  refine ⟨t, c, lane, sealing, bsc, ports, ?_⟩
  split
  · exact .inr rfl
  · exact .inl rfl

theorem HoldersOk.extendBand {s : State} (slots : SlotsOk s) (h : HoldersOk s) {slot : Nat} {b : Band} (band : s.band slot = some b)
    (filling : b.sealing = none) (x : Placement) : HoldersOk (extendBand slot b x s) := by
  obtain ⟨t, c, lane, sealing, bsc, ports, extended⟩ := extendBand_writes slot b x s
  have written : HoldersOk t := h.putFilling band filling (sealing.trans filling) (by rw [bsc]) ports
  have split : SlotsOk t := (slotsOk_iff t).mpr
    (slots.split.rewriteSame band (by rw [bsc]) (by rw [bsc]) (by rw [bsc]) lane (by rw [sealing]))
  rcases extended with same | sealed
  · rw [same]; exact written
  · rw [sealed]; exact written.sealBand split _ _

/-- A band is opened at a FREE slot, which no entry names (R107). -/
theorem HoldersOk.bandOpened {s : State} (slots : SlotsOk s) (h : HoldersOk s) {x : Placement} {slot : Nat} {free : List Nat}
    (head : s.bsc.free = slot :: free) : HoldersOk (bandOpened slot free x s) := by
  have absent := ((slots.split.free slot).mp (by rw [head]; exact List.mem_cons_self)).2
  refine (holdersOk_iff _).mpr fun other => ?_
  rw [bandOpened_band]
  split
  next own => rw [own]; exact (holds_filling rfl).mpr (h.free slot absent)
  · exact h.counted other

theorem judgePressure_kept (s : State) : EntriesKept s (judgePressure s) := .of_raises (by rw [judgePressure_bsc]) (judgePressure_raises s)

theorem HoldersOk.openBand {s : State} (slots : SlotsOk s) (h : HoldersOk s) {x : Placement} (idle : s.bsc.filling.get x.lane = none) :
    HoldersOk (openBand x s) := by
  cases head : s.bsc.free with
  | nil =>
    rw [openBand_full head]
    exact h.kept (.of_ports rfl rfl)
  | cons slot free =>
    rw [openBand_free head]
    exact ((h.bandOpened slots head).kept (judgePressure_kept _)).extendBand (slots.bandOpened idle head).judgePressure
      (by rw [judgePressure_band, bandOpened_band, if_pos rfl]) rfl x

theorem HoldersOk.place {s : State} (slots : SlotsOk s) (h : HoldersOk s) (x : Placement) : HoldersOk (place x s) := by
  cases filling : s.bsc.filling.get x.lane with
  | none => rw [place_idle filling]; exact h.openBand slots filling
  | some slot =>
    obtain ⟨b, band, _, open_⟩ := (slots.filling x.lane slot).mp filling
    rw [place_filling filling band]
    split
    · exact h.extendBand slots band open_ x
    · exact (h.sealBand slots x.lane false).openBand (slots.sealBand x.lane false) (sealBand_filling_self _ _ _)

theorem HoldersOk.storeWork {s t : State} (work : StoreWork s t) : SlotsOk s → HoldersOk s → HoldersOk t := by
  induction work with
  | quiet bsc _ _ raises => exact fun _ h => h.kept (.of_raises (by rw [bsc]) raises)
  | seals k stop s => exact fun slots h => h.sealBand slots k stop
  | places x s => exact fun slots h => h.place slots x
  | trans first _ ih₁ ih₂ => exact fun slots h => ih₂ (slotsOk_kept.work first slots) (ih₁ slots h)

/-! ### The actions of the requests -/

/-- A request whose action keeps the bands and the entries for all its fields. -/
theorem ActsKeep.entries {α : Type} {read : List Byte → Option α} {act : α → State → State × Answer}
    (keeps : ∀ x s, EntriesKept s (act x s).1) : ActsKeep HoldersOk (Machine.withFields read act) :=
  .withFields fun x s h => h.kept (keeps x s)

theorem setMotion_entriesKept (r : MotionSettings) (s : State) : EntriesKept s (setMotion r s).1 := by
  unfold setMotion
  split
  · exact .of_ports rfl rfl
  · exact .refl s

theorem repeatRestart_entriesKept (x : Unit) (s : State) : EntriesKept s (repeatRestart x s).1 :=
  (EntriesKept.of_ports (s := s) (t := s.withRu { s.ru with restart := some .requested, chain := none }) rfl rfl).trans
    (.of_agree (goLock_agree (A := [.ru, .ports]) _ _ (by decide) (by decide)) (goLock_raises _ _))

theorem setRepeat_entriesKept (r : RepeatSettings) (s : State) : EntriesKept s (setRepeat r s).1 := by
  unfold setRepeat
  split
  · exact .of_ports rfl rfl
  · exact .refl s

theorem setLane_entriesKept (f : LaneFields) (s : State) : EntriesKept s (setLane f s).1 := by
  unfold setLane
  split
  · exact .refl s
  · split
    · exact .of_ports rfl rfl
    · exact .refl s

theorem pageClear_entriesKept (x : Unit) (s : State) : EntriesKept s (pageClear x s).1 := .of_ports rfl rfl

theorem pageSeek_entriesKept (e : Nat) (s : State) : EntriesKept s (pageSeek e s).1 := by
  unfold pageSeek
  split
  · exact .of_ports rfl rfl
  · exact .refl s

theorem pageFill_entriesKept (es : List Correction) (s : State) : EntriesKept s (pageFill es s).1 := by
  unfold pageFill
  split
  · exact .of_ports rfl rfl
  · exact .refl s

theorem pageCommit_entriesKept (p : Port) (x : Nat × Nat) (s : State) : EntriesKept s (pageCommit p x s).1 := by
  have completed : ∀ k s, EntriesKept s (completeCommit k s) := fun k s =>
    .of_agree (completeCommit_agree (A := [.cb, .ports]) k s (by decide) (by decide)) (completeCommit_raises k s)
  unfold pageCommit
  split
  · exact .refl s
  next k _ =>
    split
    · have pends : EntriesKept s (s.withCb { s.cb with commit := some { lane := k, page := x.2, port := p } }) := .of_ports rfl rfl
      dsimp only
      split
      · exact pends
      · exact pends.trans (completed k _)
      · exact pends.trans (completed k _)
    · exact .refl s

theorem endSearch_entriesKept (x : Search) (cause : EndCause) (w : Line) (s : State) : EntriesKept s (endSearch x cause w s) :=
  .of_agree (endSearch_agree x cause w s) (endSearch_raises x cause w s)

theorem levelStart_entriesKept (p : Port) (f : LevelFields) (s : State) : EntriesKept s (levelStart p f s).1 := by
  unfold levelStart
  split
  · exact .refl s
  · split
    · exact .ite (.of_ports rfl rfl) (endSearch_entriesKept _ _ _ s)
    · exact .refl s

theorem levelAbort_entriesKept (x : Unit) (s : State) : EntriesKept s (levelAbort x s).1 := by
  unfold levelAbort
  split
  · exact endSearch_entriesKept _ _ _ s
  · exact .refl s
  · exact .refl s

theorem setStore_entriesKept (f : StoreFields) (s : State) : EntriesKept s (setStore f s).1 := by
  unfold setStore
  split
  · have stored : EntriesKept s ((s.withShared { s.shared with stallTimeout := f.stallTimeout, standby := f.standby }).withBsc
        { s.bsc with reserve := f.reserve }) := .of_ports rfl rfl
    exact .ite (stored.trans (judgePressure_kept _)) stored
  · exact .refl s

theorem windowOpen_entriesKept (p : Port) (f : WindowFields) (s : State) : EntriesKept s (windowOpen p f s).1 := by
  unfold windowOpen
  split
  · split
    · exact .refl s
    · exact .of_ports rfl rfl
  · exact .refl s

theorem windowReturn_entriesKept (p : Port) (id : Nat) (s : State) : EntriesKept s (windowReturn p id s).1 := by
  unfold windowReturn
  split
  · exact .refl s
  · split
    · exact .of_ports rfl rfl
    · exact .refl s

theorem HoldersOk.windowClose (p : Port) (id : Nat) (s : State) (h : HoldersOk s) : HoldersOk (windowClose p id s).1 := by
  unfold Machine.windowClose
  split
  · exact h
  · exact h.closeWindow id

theorem grantCredit_entriesKept (p : Port) (n : Nat) (s : State) : EntriesKept s (grantCredit p n s).1 := by
  unfold grantCredit
  split
  · exact .setPort rfl
  · exact .refl s

/-- The claim taken or given up, with the notice to the other ports (R167, R168). -/
theorem claimed_entriesKept (p : Port) (x : SharedRecord) (s : State) : EntriesKept s (raiseOthers p .claim (s.withShared x)) :=
  .of_raises rfl (raiseWhere_raises _ _ _)

theorem takeClaim_entriesKept (p : Port) (x : Unit) (s : State) : EntriesKept s (takeClaim p x s).1 := by
  unfold takeClaim
  split
  · exact claimed_entriesKept p _ s
  · split <;> exact .refl s

theorem releaseClaim_entriesKept (p : Port) (x : Unit) (s : State) : EntriesKept s (releaseClaim p x s).1 := by
  unfold releaseClaim
  split
  · exact claimed_entriesKept p _ s
  · exact .refl s

theorem setNotices_entriesKept (p : Port) (x : Bool × List NoticeKind) (s : State) : EntriesKept s (setNotices p x s).1 := by
  unfold setNotices
  split
  · exact .setPort rfl
  · exact .refl s

theorem takeStatus_entriesKept (p : Port) (x : Unit) (s : State) : EntriesKept s (takeStatus p x s).1 := .setPort rfl

theorem beginRestart_entriesKept (p : Port) (x : Unit) (s : State) : EntriesKept s (beginRestart p x s).1 := .of_ports rfl rfl

/-- The Marker Unit, which MARK_OUT and SET_MARKER_OUT change alone, holds no delivery entries. -/
theorem markOut_entriesKept (p : Port) (f : MarkFields) (s : State) : EntriesKept s (markOut p f s).1 := by
  have placed : ∀ o t width, EntriesKept s (placeMarker p o t width s).1 := fun o t width => by
    unfold placeMarker
    dsimp only
    split
    · exact .of_ports rfl rfl
    · split
      · exact .of_ports rfl rfl
      · exact .refl s
  have guarded : ∀ (c : Prop) [Decidable c] (code : ResponseCode) (r : State × Answer), EntriesKept s r.1 →
      EntriesKept s (if c then refuse code s else r).1 := by
    intro c _ code r kept
    split
    · exact .refl s
    · exact kept
  unfold markOut
  split
  · split
    · exact .refl s
    · exact guarded _ _ _ (guarded _ _ _ (guarded _ _ _ (placed _ _ _)))
  · exact .refl s

theorem setMarkerOut_entriesKept (f : MarkerFields) (s : State) : EntriesKept s (setMarkerOut f s).1 := by
  unfold setMarkerOut
  split
  · exact .of_ports rfl rfl
  · exact .refl s

/-! ### The taking of a request, and its arrival (R163 to R165) -/

theorem respond_entriesKept (p : Port) (f : RequestFrame) (a : Answer) (s : State) : EntriesKept s (respond p f a s) := .setPort rfl

theorem HoldersOk.takeRequest {s t : State} {p : Port} {kind : Option RequestKind} {act : RequestFrame → State → State × Answer}
    (keeps : ActsKeep HoldersOk act) (h : HoldersOk s) (e : takeRequest p kind act s = .next t) : HoldersOk t := by
  unfold Machine.takeRequest at e
  split at e
  · cases e; exact h
  next f rest _ =>
    split at e
    · cases e
      exact ((keeps f _ (h.kept (.setPort (c := { s.port p with requests := rest }) rfl))).kept (respond_entriesKept p f _ _)).settle
    · cases e; exact h

theorem countRequestError_entriesKept (p : Port) (s : State) : EntriesKept s (countRequestError p s) := .setPort rfl

theorem acceptFrame_entriesKept (p : Port) (f : RequestFrame) (s : State) : EntriesKept s (acceptFrame p f s) := by
  unfold acceptFrame
  extract_lets c
  split
  · exact .setPort rfl
  · exact .ite (respond_entriesKept p f _ s) (countRequestError_entriesKept p s)

theorem HoldersOk.execRequestArrival {s t : State} {p : Port} {bytes : List Byte} (h : HoldersOk s)
    (e : execRequestArrival p bytes s = .next t) : HoldersOk t := by
  unfold Machine.execRequestArrival at e
  split at e
  · split at e
    · cases e; exact (h.kept (countRequestError_entriesKept p s)).settle
    · cases e; exact (h.kept (acceptFrame_entriesKept p _ s)).settle
  · cases e; exact h

/-! ### Resets, links, frames and timers -/

/-- A reset leaves no band and no entry (R112, R151). -/
theorem holdersOk_of_reset {s : State} (bands : s.bsc.bands = [])
    (ports : ∀ p, ∃ state linkUp, s.port p = ConsumerPort.initial state linkUp) : HoldersOk s := by
  refine (holdersOk_iff s).mpr fun slot => ?_
  have empty : s.naming slot = 0 := by
    refine List.countP_eq_zero.mpr fun e mem => ?_
    obtain ⟨p, _, own⟩ := List.mem_flatMap.mp mem
    obtain ⟨state, linkUp, port⟩ := ports p
    rw [port] at own
    cases own
  rw [State.band, bands]
  exact empty

theorem holdersOk_powerOnReset (inputs : EncInputs) (s : State) : HoldersOk (powerOnReset inputs s) :=
  holdersOk_of_reset rfl fun p => ⟨_, _, PerPort.get_map _ _ p⟩

theorem holdersOk_restartReset (s : State) : HoldersOk (restartReset s) := holdersOk_of_reset rfl fun p => ⟨_, _, PerPort.get_map _ _ p⟩

/-- A DOWN port holds no entries (R148), as a port whose link has come up (R132). -/
theorem HoldersOk.execSteeringLinkUp {s t : State} {p : Port} (ports : PortsOk s) (h : HoldersOk s) (e : execSteeringLinkUp p s = .next t) :
    HoldersOk t := by
  unfold Machine.execSteeringLinkUp at e
  dsimp only at e
  split at e
  next down =>
    cases e
    obtain ⟨_, essential, sheddable, outbound, _⟩ := ports.quiet p down
    refine h.kept (.setPort ?_)
    rw [ConsumerPort.entries_eq, ConsumerPort.entries_eq, ConsumerPort.strip, ConsumerPort.strip, essential, sheddable, outbound]
    rfl
  · cases e; exact h
  · cases e; exact h

theorem HoldersOk.execFrameCompletion {s t : State} {p : Port} (h : HoldersOk s) (e : execFrameCompletion p s = .next t) : HoldersOk t := by
  have sent : (s.port p).strip = [] → HoldersOk (Machine.settle (s.setPort p { s.port p with outbound := none })) := fun silent =>
    (h.kept (.setPort (by rw [ConsumerPort.entries_eq, ConsumerPort.entries_eq, silent]; rfl))).settle
  unfold Machine.execFrameCompletion at e
  split at e
  next frame =>
    split at e
    · cases e; exact holdersOk_restartReset s
    · cases e; exact sent (by rw [ConsumerPort.strip, frame])
  next frame => cases e; exact sent (by rw [ConsumerPort.strip, frame])
  · cases e; exact h
  · cases e; exact h

/-- The frame of a strip is complete: its entry is no entry of the port any more, and is released (R139). -/
theorem HoldersOk.execStripCompletion {s t : State} {p : Port} (h : HoldersOk s) (e : execStripCompletion p s = .next t) : HoldersOk t := by
  unfold Machine.execStripCompletion at e
  split at e
  next x f strip =>
    cases e
    have sent : HoldersWith [x] (s.setPort p { s.port p with outbound := none }) := h.counted.setPort fun slot => by
      have flies : (s.port p).strip = [x] := by rw [ConsumerPort.strip, strip]
      rw [ConsumerPort.entries_eq, ConsumerPort.entries_eq (s.port p), namedIn_append, namedIn_append _ (s.port p).strip, flies]
      rfl
    exact (((holdersOk_iff _).mpr sent.release).kept (closingStripEnd_kept x.window _)).settle
  all_goals cases e; exact h

theorem HoldersOk.execStallTimerExpiry {s t : State} {p : Port} (h : HoldersOk s) (e : execStallTimerExpiry p s = .next t) : HoldersOk t := by
  unfold Machine.execStallTimerExpiry at e
  split at e
  next due _ _ =>
    cases e
    have stalled : EntriesKept s ((s.clockAt due).setPort p { s.port p with state := .stalled, stall := none }) :=
      (EntriesKept.of_ports (s := s) (t := s.clockAt due) rfl rfl).trans (.setPort rfl)
    exact ((h.kept (stalled.trans (raiseAt_kept p .stall _))).failPort p false).settle
  · cases e; exact h

theorem HoldersOk.execStopTimerExpiry {s t : State} (slots : SlotsOk s) (h : HoldersOk s) (e : execStopTimerExpiry s = .next t) :
    HoldersOk t := by
  unfold Machine.execStopTimerExpiry at e
  split at e
  · cases e; exact h
  next due _ =>
    cases e
    set stopped := (s.clockAt due).withMu { s.mu with motion := .stopped, stopTimer := none }
    have worked : StoreWork stopped (raiseUp .motion (stopSeal stopped)) := (stopSeal_work stopped).trans (.raiseWhere _ _ _)
    have stops : HoldersOk stopped := h.kept (.of_ports rfl rfl)
    exact (stops.storeWork worked (slots.congr rfl)).settle

theorem HoldersOk.execSteeringLinkLoss {s t : State} {p : Port} (h : HoldersOk s) (e : execSteeringLinkLoss p s = .next t) : HoldersOk t := by
  set failed := Machine.failPort p true (Machine.cutLink p s) with fails
  have quiet : EntriesKept failed (dropClaim p (failed.setPort p (downPort (failed.port p)))) :=
    (EntriesKept.setPort (p := p) (c := downPort (failed.port p)) rfl).trans (.ite (claimed_entriesKept p _ _) (.refl _))
  have lost := (((h.cutLink p).failPort p true).kept quiet).settle
  unfold Machine.execSteeringLinkLoss at e
  split at e
  · cases e; exact h
  all_goals
    split at e
    · cases e; exact holdersOk_restartReset _
    · cases e; exact lost

/-! ### Every command -/

/-- Every command keeps the holder counts: one whose frame spares the store and the ports leaves both as they are. -/
theorem HoldersOk.exec {c : Instr} {s t : State} (slots : SlotsOk s) (ports : PortsOk s) (h : HoldersOk s) (e : exec c s = .next t) :
    HoldersOk t := by
  have worked : ∀ {u}, StoreWork s u → (Host.Outcome.next (Machine.settle u) : Host.Outcome State Fault Refusal) = .next t → HoldersOk t :=
    fun work e => by cases e; exact (h.storeWork work slots).settle
  by_cases spared : Part.bsc ∉ touched c ∧ Part.ports ∉ touched c
  · obtain ⟨u, hu, agree⟩ := commandFrames c s
    rw [hu] at e
    cases e
    exact h.kept (.of_ports (by rw [agree.bsc spared.1]) (agree.ports spared.2))
  · cases c with
    | powerOn inputs => cases e; exact holdersOk_powerOnReset inputs s
    | encoderCount inputs => exact worked (encoderChange_work inputs s) e
    | stopTimerExpiry => exact h.execStopTimerExpiry slots e
    | setMotion p => exact h.takeRequest (.asHolder p (.entries setMotion_entriesKept)) e
    | markEdge edge => exact worked (markTransition_work edge s) e
    | repeatRestart p => exact h.takeRequest (.asHolder p (.entries repeatRestart_entriesKept)) e
    | setRepeat p => exact h.takeRequest (.asHolder p (.entries setRepeat_entriesKept)) e
    | snapshot p => exact h.takeRequest (.inform _) e
    | log p => exact h.takeRequest (.inform _) e
    | setLane p => exact h.takeRequest (.asHolder p (.entries setLane_entriesKept)) e
    | lineArrival k frame => exact worked (arriveLine_work k frame s) e
    | laneLinkLoss k => exact worked (loseLaneLink_work k s) e
    | laneLinkReturn k => exact worked (returnLaneLink_work k s) e
    | laneInfo p => exact h.takeRequest (.inform _) e
    | pageClear p => exact h.takeRequest (.asHolder p (.unlessCommit (.entries pageClear_entriesKept))) e
    | pageSeek p => exact h.takeRequest (.asHolder p (.unlessCommit (.entries pageSeek_entriesKept))) e
    | pageFill p => exact h.takeRequest (.asHolder p (.unlessCommit (.entries pageFill_entriesKept))) e
    | pageCommit p => exact h.takeRequest (.asHolder p (.unlessCommit (.entries (pageCommit_entriesKept p)))) e
    | tableRead p => exact h.takeRequest (.inform _) e
    | levelStart p => exact h.takeRequest (.asHolder p (.unlessSearching (.entries (levelStart_entriesKept p)))) e
    | spanEnd => exact worked (levelSpan_work _ s) e
    | levelAbort p => exact h.takeRequest (.asHolder p (.entries levelAbort_entriesKept)) e
    | levelResults p => exact h.takeRequest (.inform _) e
    | setStore p => exact h.takeRequest (.asHolder p (.entries setStore_entriesKept)) e
    | windowOpen p => exact h.takeRequest (.ifLive fun x s _ h => h.kept (windowOpen_entriesKept p x s)) e
    | windowClose p => exact h.takeRequest (.withFields (HoldersOk.windowClose p)) e
    | windowReturn p => exact h.takeRequest (.entries (windowReturn_entriesKept p)) e
    | windowInfo p => exact h.takeRequest (.inform _) e
    | steeringLinkUp p => exact h.execSteeringLinkUp ports e
    | grant p => exact h.takeRequest (.entries (grantCredit_entriesKept p)) e
    | frameCompletion p => exact h.execFrameCompletion e
    | stripCompletion p => exact h.execStripCompletion e
    | stallTimerExpiry p => exact h.execStallTimerExpiry e
    | steeringLinkLoss p => exact h.execSteeringLinkLoss e
    | requestArrival p bytes => exact h.execRequestArrival e
    | badKind p => exact h.takeRequest (act := fun _ => refuse .badKind) (fun _ _ => id) e
    | claim p => exact h.takeRequest (.entries (takeClaim_entriesKept p)) e
    | release p => exact h.takeRequest (.entries (releaseClaim_entriesKept p)) e
    | notices p => exact h.takeRequest (.entries (setNotices_entriesKept p)) e
    | status p => exact h.takeRequest (.entries (takeStatus_entriesKept p)) e
    | restart p => exact h.takeRequest (.asHolder p (.entries (beginRestart_entriesKept p))) e
    | markOut p => exact h.takeRequest (.ifLive fun x s _ h => h.kept (markOut_entriesKept p x s)) e
    | setMarkerOut p => exact h.takeRequest (.asHolder p (.entries setMarkerOut_entriesKept)) e
    | _ => exact absurd (by simp [touched]) spared

/-- Settles O10: entries leave the ports only to be released, and join them only at the seal that sets the holder count of their band. -/
theorem stepKeepsHolders : Obligations.StepKeepsHolders := by
  unfold Obligations.StepKeepsHolders
  intro s t slots ports h e
  unfold Machine.step at e
  split at e
  · cases e; exact h.kept (.of_ports rfl rfl)
  next c rest _ =>
    have shifted : PortsOk (s.withPending rest) := ⟨ports.link, ports.quiet, ports.holder, ports.restart⟩
    exact (h.kept (t := s.withPending rest) (.of_ports rfl rfl)).exec (slots.congr (t := s.withPending rest) rfl) shifted e

end Sys2Proof.Machine
end

section
/-!
SUPPORT AND PROOF. The end of an event that changed one port of a settled state alone (R135, R141), and the end of a response or notice
frame (R135 to R138).
-/

namespace Sys2Proof.Machine

/-! ### One port of a settled state changed -/

/-- In a settled state of which one port has changed, that port's arbiter alone has something to begin, once, and its stall timer alone
something to judge. -/
theorem settle_at {s u : State} {p : Port} (h : Settled s) (windows : u.windows = s.windows) (bands : u.bsc.bands = s.bsc.bands)
    (others : ∀ q, q ≠ p → u.port q = s.port q) :
    settle u = (arbitrate u p).setPort p (judgeStall (arbitrate u p) ((arbitrate u p).port p)) := by
  obtain ⟨own, same, bsc, ids⟩ := arbitrate_spec u p
  set v := arbitrate u p with chosen
  have rest : ∀ q, arbitrate v q = v := fun q => by
    rw [arbitrate_eq_self]
    by_cases here : q = p
    · rw [here]; exact own
    · rw [same q here, others q here, bsc, bands]
      intro up idle
      obtain ⟨responses, notice, none⟩ := h.port_restful q up idle
      exact ⟨responses, notice, fun e next live credit => by
        rw [beginnable_congr (vs := s.windows) fun id => by rw [ids, windows]]
        exact none e next live credit⟩
  have before : ∀ q, q ≠ p → arbitrate u q = u := fun q ne => by
    rw [arbitrate_eq_self, others q ne, windows, bands]
    exact h.port_restful q
  have fold : allPorts.foldl arbitrate u = v := by
    cases p <;> simp [allPorts, ← chosen, before, rest]
  unfold settle
  dsimp only
  rw [fold]
  have ports : (v.ports.map fun _ c => judgeStall v c) = (v.setPort p (judgeStall v (v.port p))).ports := by
    apply PerPort.ext_get
    intro q
    rw [PerPort.get_map]
    show judgeStall v (v.port q) = (v.setPort p (judgeStall v (v.port p))).port q
    rw [State.port_setPort]
    split
    next here => rw [here]
    next ne => rw [same q ne, others q ne]; exact judgeStall_of_settled v _ (h.stall q)
  rw [ports]
  rfl

theorem arbitrate_notices {s : State} {p : Port} {kinds : NoticeSet} (up : (s.port p).isUp = true) (idle : (s.port p).outbound = none)
    (silent : (s.port p).responses = []) (waits : (s.port p).notice = some kinds) :
    arbitrate s p = s.setPort p { s.port p with notice := none, outbound := some (.notice kinds) } := by
  unfold arbitrate
  dsimp only
  split
  next down => simp [ConsumerPort.isUp, down] at up
  next busy _ => simp [idle] at busy
  · rw [silent, waits]

theorem arbitrate_strip {s : State} {p : Port} {e : Entry} {w : Window} {b : Band} {r : SealRecord} (idle : (s.port p).outbound = none)
    (silent : (s.port p).responses = []) (quiet : (s.port p).notice = none) (live : (s.port p).state = .live)
    (credit : 1 ≤ (s.port p).credit) (next : (s.port p).nextEntry = some e) (window : s.window e.window = some w)
    (band : s.band e.slot = some b) (held : b.sealing = some r) :
    arbitrate s p = (putWindow e.window w.begun s).setPort p { (s.port p).dropEntry with
      credit := (s.port p).dropEntry.credit - 1, sent := (s.port p).dropEntry.sent + 1
      outbound := some (.strip e (stripHeader e w b r)) } := by
  unfold arbitrate
  dsimp only
  rw [live, idle, silent, quiet, next]
  dsimp only
  rw [if_pos ⟨rfl, credit⟩, beginStrip, window, band]
  dsimp only
  rw [held]

theorem arbitrate_idle {s : State} {p : Port} (silent : (s.port p).responses = []) (quiet : (s.port p).notice = none)
    (unable : (s.port p).state ≠ .live ∨ (s.port p).credit = 0 ∨ (s.port p).essential = [] ∧ (s.port p).sheddable = []) :
    arbitrate s p = s := by
  refine (arbitrate_eq_self s p).mpr fun _ _ => ⟨silent, quiet, fun e next live credit => ?_⟩
  rcases unable with other | zero | ⟨essential, sheddable⟩
  · exact absurd live other
  · omega
  · rw [ConsumerPort.nextEntry, essential, sheddable] at next
    cases next

/-! ### The end of a response or notice frame (R135, R137) -/

/-- A port whose frame is sent. -/
def frameSent (p : Port) (s : State) : State := s.setPort p { s.port p with outbound := none }

@[simp] theorem frameSent_port (p : Port) (s : State) : (frameSent p s).port p = { s.port p with outbound := none } :=
  State.port_setPort_self _ _ _

theorem isRestartDone_iff (x : Response) : x.isRestartDone = true ↔ x.kind = 28 ∧ x.code = .done := by
  rw [Response.isRestartDone, Bool.and_eq_true, decide_eq_true_iff, beq_iff_eq]
  refine and_congr_left fun _ => ⟨fun code => BitVec.eq_of_toNat_eq code, fun kind => by rw [kind]; rfl⟩

/-- The end of a frame other than a strip and the DONE of a RESTART in progress. -/
theorem execFrameCompletion_sent {s : State} {p : Port} {frame : OutFrame} (sends : (s.port p).outbound = some frame)
    (other : ∀ e h, frame ≠ .strip e h)
    (running : ¬(s.shared.restart = some p ∧ ∃ x, frame = .response x ∧ x.kind = 28 ∧ x.code = .done)) :
    execFrameCompletion p s = .next (settle (frameSent p s)) := by
  unfold execFrameCompletion
  rw [sends]
  cases frame with
  | response x =>
    refine if_neg fun ⟨restart, done⟩ => running ⟨restart, x, rfl, (isRestartDone_iff x).mp done⟩
  | notice kinds => rfl
  | strip e h => exact absurd rfl (other e h)

/-- The end of an event at a port that has begun another frame, and no strip: its stall timer runs on. -/
theorem settle_frameSent {s : State} {p : Port} {c : ConsumerPort} (h : Settled s)
    (chosen : arbitrate (frameSent p s) p = (frameSent p s).setPort p c) (stall : c.stall = (s.port p).stall)
    (stalling : c.stalling = (s.port p).stalling) : settle (frameSent p s) = s.setPort p c := by
  rw [settle_at (u := frameSent p s) h rfl rfl fun q ne => State.port_setPort_ne _ _ ne, chosen, State.port_setPort_self,
    judgeStall_of_settled _ c (by rw [stall, stalling]; exact h.stall p), State.setPort_setPort]
  exact State.setPort_setPort _ _ _ _

/-- The entry for which a strip is begun, and the queues behind it: the essential queue goes first (R136). -/
theorem nextEntry_dropEntry {c : ConsumerPort} {e : Entry} {es sh : List Entry}
    (queues : (c.essential = e :: es ∧ c.sheddable = sh) ∨ (c.essential = [] ∧ es = [] ∧ c.sheddable = e :: sh)) :
    c.nextEntry = some e ∧ c.dropEntry = { c with essential := es, sheddable := sh } := by
  cases c
  rcases queues with ⟨essential, sheddable⟩ | ⟨essential, rfl, sheddable⟩
  · cases essential; cases sheddable; exact ⟨rfl, rfl⟩
  · cases essential; cases sheddable; exact ⟨rfl, rfl⟩

/-- A stall timer that does not run is started where its conditions have come to hold (R141). -/
theorem judgeStall_stopped (s : State) {c : ConsumerPort} (stopped : c.stall = none) : judgeStall s c
    = { c with stall := if c.stalling then some (s.now + s.shared.stallTimeout * Config.unitsPerMs) else none } := by
  unfold judgeStall
  split
  · rw [stopped]
  · rfl

theorem stalling_iff (c : ConsumerPort) :
    c.stalling = true ↔ c.state = .live ∧ c.credit = 0 ∧ ¬(c.essential = [] ∧ c.sheddable = []) := by
  simp [ConsumerPort.stalling, ConsumerPort.isLive, and_assoc, -not_and, not_and_or]

theorem Settled.stall_none {s : State} (h : Settled s) {p : Port} (credit : 1 ≤ (s.port p).credit) : (s.port p).stall = none := by
  have stops : ¬(s.port p).stalling = true := fun stalling => by
    have zero := ((stalling_iff _).mp stalling).2.1
    omega
  rw [← h.stall p] at stops
  exact Option.not_isSome_iff_eq_none.mp stops

/-- The end of an event at a port that begins a strip. -/
theorem settle_frameSent_strip {s : State} {p : Port} {e : Entry} {es sh : List Entry} {w : Window} {b : Band} {r : SealRecord}
    (h : Settled s) (silent : (s.port p).responses = []) (quiet : (s.port p).notice = none) (live : (s.port p).state = .live)
    (credit : 1 ≤ (s.port p).credit)
    (queues : ((s.port p).essential = e :: es ∧ (s.port p).sheddable = sh)
      ∨ ((s.port p).essential = [] ∧ es = [] ∧ (s.port p).sheddable = e :: sh))
    (window : s.window e.window = some w) (band : s.band e.slot = some b) (held : b.sealing = some r) :
    settle (frameSent p s) = (putWindow e.window w.begun s).setPort p { s.port p with
      credit := (s.port p).credit - 1, sent := (s.port p).sent + 1, essential := es, sheddable := sh
      stall := if (s.port p).credit = 1 ∧ ¬(es = [] ∧ sh = []) then some (s.now + s.shared.stallTimeout * 100000) else none
      outbound := some (.strip e (stripHeader e w b r)) } := by
  set u := frameSent p s with sent
  have port : u.port p = { s.port p with outbound := none } := frameSent_port p s
  obtain ⟨next, dropped⟩ := nextEntry_dropEntry (c := u.port p) (e := e) (es := es) (sh := sh) (by rw [port]; exact queues)
  set begun : ConsumerPort := { s.port p with
    credit := (s.port p).credit - 1, sent := (s.port p).sent + 1, essential := es, sheddable := sh
    outbound := some (.strip e (stripHeader e w b r)) } with strip
  have chosen : arbitrate u p = (putWindow e.window w.begun u).setPort p begun := by
    rw [arbitrate_strip (by rw [port]) (by rw [port]; exact silent) (by rw [port]; exact quiet) (by rw [port]; exact live)
      (by rw [port]; exact credit) next window band held, dropped, port]
  have stalls : begun.stalling = true ↔ (s.port p).credit = 1 ∧ ¬(es = [] ∧ sh = []) := by
    rw [stalling_iff]
    refine (and_iff_right (live : begun.state = .live)).trans (and_congr_left fun _ => ?_)
    show (s.port p).credit - 1 = 0 ↔ _
    omega
  have stopped : begun.stall = none := h.stall_none credit
  rw [settle_at (u := u) h rfl rfl (fun q ne => State.port_setPort_ne _ _ ne), chosen, State.port_setPort_self, State.setPort_setPort,
    judgeStall_stopped _ stopped, if_congr stalls rfl rfl]
  exact State.setPort_setPort (putWindow e.window w.begun s) p _ _

/-! ### The content of a strip (R97, R138) -/

/-- A byte of a sealed band (R97). -/
theorem bandContent_eq (mem : List Host.Cell) (slot : Nat) (b : Band) (fill : Byte) (irl pos : Nat) : bandContent mem slot b fill irl pos
    = if pos < (tableGet b.presence irl).getD 0 then dramRead mem (slot * 524288 + (irl - 64 * b.block) * 8192 + pos) else fill := by
  unfold bandContent
  split
  next absent => rw [absent]; rfl
  next n present => rw [present]; rfl

/-- Settles O52: a settled state with the frame gone from one link is settled but for that port, whose arbiter chooses by R135. -/
theorem frameCompletions : Obligations.FrameCompletions := by
  unfold Obligations.FrameCompletions
  refine ⟨fun s p frame h up sends other running => ?_, fun s p e f b r sends band held => ?_⟩
  · have ends : exec (.frameCompletion p) s = .next (settle (frameSent p s)) := execFrameCompletion_sent sends other running
    rw [ends]
    have up' : ((frameSent p s).port p).isUp = true := by rw [frameSent_port]; exact up
    have idle : ((frameSent p s).port p).outbound = none := by rw [frameSent_port]
    refine ⟨fun x xs waits => ?_, fun kinds silent waits => ?_, fun silent quiet unable => ?_,
      fun e es sh w b r silent quiet live credit queues window band held => ?_⟩
    · refine congrArg _ (settle_frameSent h ((arbitrate_responds up' idle (by rw [frameSent_port]; exact waits)).trans ?_) rfl rfl)
      rw [frameSent_port]
    · refine congrArg _ (settle_frameSent h ((arbitrate_notices up' idle (by rw [frameSent_port]; exact silent)
        (by rw [frameSent_port]; exact waits)).trans ?_) rfl rfl)
      rw [frameSent_port]
    · refine congrArg _ (settle_frameSent h ((arbitrate_idle (by rw [frameSent_port]; exact silent) (by rw [frameSent_port]; exact quiet)
        (by rw [frameSent_port]; exact unable)).trans ?_) rfl rfl)
      exact ((State.setPort_eq_self _ _ _).mpr (frameSent_port p s).symm).symm
    · exact congrArg _ (settle_frameSent_strip h silent quiet live credit queues window band held)
  · obtain ⟨length, bytes⟩ := stripPayload_get s.dram e b r.fill
    refine ⟨stripPayload s.dram e b r.fill, ?_, length, fun i j line column => ?_⟩
    · rw [State.wire, sends]
      dsimp only
      rw [band]
      dsimp only
      rw [held]
      rfl
    · rw [bytes i j line column, bandContent_eq]

end Sys2Proof.Machine
end

section
/-!
SUPPORT. Which strips the end of an event begins, where one port alone may have one to begin.
-/

namespace Sys2Proof.Machine

/-! ### Strips at the end of an event (R135 to R137) -/

/-- A port that has no strip to begin. -/
def State.AtRest (s : State) (p : Port) : Prop := (s.port p).outbound = none → (s.port p).state = .live → 1 ≤ (s.port p).credit →
  ∀ e, (s.port p).nextEntry = some e → ¬beginnable s.windows s.bsc.bands e

theorem atRest_of_restful {s : State} {p : Port} (h : (s.port p).restful s.windows s.bsc.bands) : s.AtRest p :=
  fun idle live credit e next => (h (by rw [live]; exact nofun) idle).2.2 e next live credit

theorem Settled.atRest {s : State} (h : Settled s) (p : Port) : s.AtRest p := atRest_of_restful (h.port_restful p)

/-- A port with the link, the state, the credit and the next entry of one at rest is at rest while no band or window has been added. -/
theorem State.AtRest.mono {s t : State} {p : Port} (h : s.AtRest p) (link : (t.port p).outbound = none → (s.port p).outbound = none)
    (live : (t.port p).state = .live → (s.port p).state = .live) (credit : (t.port p).credit ≤ (s.port p).credit)
    (next : ∀ e, (t.port p).nextEntry = some e → (s.port p).nextEntry = some e)
    (begins : ∀ e, beginnable t.windows t.bsc.bands e → beginnable s.windows s.bsc.bands e) : t.AtRest p :=
  fun idle live' credit' e next' able => h (link idle) (live live') (credit'.trans credit) e (next e next') (begins e able)

theorem State.AtRest.congr {s t : State} {p : Port} (h : s.AtRest p) (port : t.port p = s.port p)
    (begins : ∀ e, beginnable t.windows t.bsc.bands e → beginnable s.windows s.bsc.bands e) : t.AtRest p :=
  h.mono (by rw [port]; exact id) (by rw [port]; exact id) (by rw [port]) (by rw [port]; exact fun _ => id) begins

theorem arbitrate_atRest {s : State} (p q : Port) (h : q ≠ p → s.AtRest q) : (arbitrate s p).AtRest q := by
  obtain ⟨own, same, bsc, ids⟩ := arbitrate_spec s p
  by_cases here : q = p
  · rw [here]; exact atRest_of_restful own
  · exact (h here).congr (same q here) fun e => by rw [bsc]; exact (beginnable_congr ids e).mp

/-- No strip was begun: the windows are as they were, and every port holds its entries and its credit. -/
structure NoStrip (s t : State) : Prop where
  windows : t.windows = s.windows
  work : ∀ p, (s.port p).SameWork (t.port p)

theorem NoStrip.refl (s : State) : NoStrip s s := ⟨rfl, fun _ => .refl _⟩

theorem NoStrip.trans {s t u : State} (h : NoStrip s t) (g : NoStrip t u) : NoStrip s u :=
  ⟨g.windows.trans h.windows, fun p => (h.work p).trans (g.work p)⟩

/-- A port began a strip for its next entry, and no other port began one. -/
structure StripBegun (st : Port) (e : Entry) (s t : State) : Prop where
  idle : (s.port st).outbound = none
  live : (s.port st).state = .live
  credit : 1 ≤ (s.port st).credit
  next : (s.port st).nextEntry = some e
  begun : ∃ w b r, s.window e.window = some w ∧ s.band e.slot = some b ∧ b.sealing = some r ∧ t.windows = tablePut s.windows e.window w.begun
    ∧ (t.port st).outbound = some (.strip e (stripHeader e w b r))
  queue : ∀ cls, (t.port st).queue cls = (s.port st).dropEntry.queue cls
  work : ∀ q, q ≠ st → (s.port q).SameWork (t.port q)

theorem StripBegun.trans {st : Port} {e : Entry} {s t u : State} (h : StripBegun st e s t) (g : NoStrip t u)
    (sends : (u.port st).outbound = (t.port st).outbound) : StripBegun st e s u where
  idle := h.idle
  live := h.live
  credit := h.credit
  next := h.next
  begun := by
    obtain ⟨w, b, r, window, band, held, windows, strip⟩ := h.begun
    exact ⟨w, b, r, window, band, held, g.windows.trans windows, sends.trans strip⟩
  queue := fun cls => ((g.work st).queue cls).trans (h.queue cls)
  work := fun q ne => (h.work q ne).trans (g.work q)

/-- A strip begun after a port's arbiter has begun none. -/
theorem StripBegun.after {st : Port} {e : Entry} {s t u : State} (h : StripBegun st e t u) (g : NoStrip s t)
    (port : t.port st = s.port st) (bands : t.bsc.bands = s.bsc.bands) : StripBegun st e s u where
  idle := by rw [← port]; exact h.idle
  live := by rw [← port]; exact h.live
  credit := by rw [← port]; exact h.credit
  next := by rw [← port]; exact h.next
  begun := by
    obtain ⟨w, b, r, window, band, held, windows, strip⟩ := h.begun
    rw [g.windows] at windows
    rw [State.window, g.windows] at window
    rw [State.band, bands] at band
    exact ⟨w, b, r, window, band, held, windows, strip⟩
  queue := fun cls => by rw [← port]; exact h.queue cls
  work := fun q ne => (g.work q).trans (h.work q ne)

theorem arbitrate_stripBegun (s : State) (p : Port) : NoStrip s (arbitrate s p) ∨ ∃ e, StripBegun p e s (arbitrate s p) := by
  rcases arbitrate_cases s p with same | ⟨idle, _, _, f, frame, begun⟩ | ⟨idle, _, _, live, credit, e, next, begun⟩
  · rw [same]; exact .inl (.refl s)
  · rw [begun]
    refine .inl ⟨rfl, fun q => ?_⟩
    rw [State.port_setPort]
    split
    next own =>
      subst own
      refine ⟨fun cls => by cases cls <;> rfl, ?_, rfl⟩
      rw [ConsumerPort.entries_eq, ConsumerPort.entries_eq, ConsumerPort.strip, ConsumerPort.strip, idle]
      cases f with
      | strip e h => exact absurd rfl (frame e h)
      | response r => rfl
      | notice kinds => rfl
    · exact .refl _
  · rcases beginStrip_cases p e s with same | ⟨w, b, r, window, band, held, strip⟩
    · rw [begun, same]; exact .inl (.refl s)
    · refine .inr ⟨e, idle, live, credit, next, ⟨w, b, r, window, band, held, ?_, ?_⟩, fun cls => ?_, fun q ne => ?_⟩
      · rw [begun, strip]; rfl
      · rw [begun, strip, State.port_setPort_self]
      · rw [begun, strip, State.port_setPort_self]
        cases cls <;> rfl
      · rw [begun, strip, State.port_setPort_ne _ _ ne]
        exact .refl _

theorem StripBegun.not_atRest {st : Port} {e : Entry} {s t : State} (h : StripBegun st e s t) : ¬s.AtRest st := fun rest => by
  obtain ⟨w, b, r, window, band, held, _⟩ := h.begun
  exact rest h.idle h.live h.credit e h.next ⟨⟨w, window⟩, b, r, band, held⟩

theorem arbitrate_noStrip {s : State} {p : Port} (h : s.AtRest p) : NoStrip s (arbitrate s p) :=
  (arbitrate_stripBegun s p).resolve_right fun ⟨_, begun⟩ => begun.not_atRest h

theorem foldl_arbitrate_noStrip (ps : List Port) : ∀ {s : State}, (∀ q, s.AtRest q) → NoStrip s (ps.foldl arbitrate s) := by
  induction ps with
  | nil => exact fun _ => .refl _
  | cons p ps ih => exact fun rest => (arbitrate_noStrip (rest p)).trans (ih fun q => arbitrate_atRest p q fun _ => rest q)

/-- A port that sends a frame keeps everything under the arbiters. -/
theorem foldl_arbitrate_busy {p : Port} (ps : List Port) : ∀ {s : State}, (s.port p).outbound.isSome = true →
    (ps.foldl arbitrate s).port p = s.port p := by
  induction ps with
  | nil => exact fun _ => rfl
  | cons q ps ih =>
    intro s busy
    have first : (arbitrate s q).port p = s.port p := by
      by_cases own : q = p
      · rw [own, arbitrate_busy busy]
      · exact (arbitrate_spec s q).2.1 p (Ne.symm own)
    rw [List.foldl_cons, ih (by rw [first]; exact busy), first]

/-- The arbiters of ports of which one alone may have a strip to begin. -/
theorem foldl_arbitrate_strips {st : Port} (ps : List Port) : ∀ {s : State}, (∀ q, q ≠ st → s.AtRest q) →
    NoStrip s (ps.foldl arbitrate s) ∨ ∃ e, StripBegun st e s (ps.foldl arbitrate s) := by
  induction ps with
  | nil => exact fun _ => .inl (.refl _)
  | cons p ps ih =>
    intro s rest
    by_cases own : p = st
    · subst own
      have later : NoStrip (arbitrate s p) (ps.foldl arbitrate (arbitrate s p)) :=
        foldl_arbitrate_noStrip ps fun q => arbitrate_atRest p q (rest q)
      rcases arbitrate_stripBegun s p with none | ⟨e, begun⟩
      · exact .inl (none.trans later)
      · refine .inr ⟨e, begun.trans later ?_⟩
        obtain ⟨w, b, r, _, _, _, _, strip⟩ := begun.begun
        rw [List.foldl_cons, foldl_arbitrate_busy ps (by rw [strip]; rfl)]
    · have first := arbitrate_noStrip (rest p own)
      obtain ⟨_, others, bsc, _⟩ := arbitrate_spec s p
      have same := others st (Ne.symm own)
      rcases ih (s := arbitrate s p) (fun q ne => arbitrate_atRest p q fun _ => rest q ne) with none | ⟨e, begun⟩
      · exact .inl (first.trans none)
      · exact .inr ⟨e, begun.after first same (by rw [bsc])⟩

/-- Where one port alone may have a strip to begin, the end of an event begins no strip, or one at that port. -/
theorem settle_strips {s : State} {st : Port} (rest : ∀ q, q ≠ st → s.AtRest q) :
    NoStrip s (settle s) ∨ ∃ e, StripBegun st e s (settle s) := by
  have judged : NoStrip (allPorts.foldl arbitrate s) (settle s) ∧ ∀ p, ((settle s).port p).outbound
      = ((allPorts.foldl arbitrate s).port p).outbound := by
    have port : ∀ p, ∃ stall, (settle s).port p = { (allPorts.foldl arbitrate s).port p with stall := stall } := fun p => by
      rw [settle_port]
      exact judgeStall_kept _ _
    refine ⟨⟨rfl, fun p => ?_⟩, fun p => ?_⟩
    all_goals
      obtain ⟨_, port⟩ := port p
      rw [port]
    exact ⟨fun cls => by cases cls <;> rfl, rfl, rfl⟩
  rcases foldl_arbitrate_strips allPorts rest with none | ⟨e, begun⟩
  · exact .inl (none.trans judged.1)
  · exact .inr ⟨e, begun.trans judged.1 (judged.2 st)⟩

theorem settle_noStrip {s : State} (rest : ∀ q, s.AtRest q) : NoStrip s (settle s) :=
  (settle_strips (st := .c0) fun q _ => rest q).resolve_right fun ⟨_, begun⟩ => begun.not_atRest (rest _)

end Sys2Proof.Machine
end

section
/-!
SUPPORT AND PROOF. GRANT and SET_STORE (R109, R133, R143, R149).
-/

namespace Sys2Proof.Machine

/-! ### GRANT (R133, R143) -/

/-- The answer of a request that changed its own port alone, and leaves it without a running stall timer. -/
theorem settle_respond_at {s t : State} {p : Port} {f : RequestFrame} {a : Answer} (h : Settled s) (windows : t.windows = s.windows)
    (bands : t.bsc.bands = s.bsc.bands) (others : ∀ q, q ≠ p → t.port q = s.port q) (up : (s.port p).isUp = true)
    (up' : (t.port p).isUp = true) (link : (t.port p).outbound = (s.port p).outbound)
    (responses : (t.port p).responses = (s.port p).responses) (stops : (t.port p).stalling = false) :
    settle (respond p f a t) = t.setPort p { (t.port p).answered (t.port p).requests (a.response f) with stall := none } := by
  set u := respond p f a t with answers
  have port : u.port p = { t.port p with responses := (t.port p).responses ++ [a.response f] } := State.port_setPort_self _ _ _
  have chosen : arbitrate u p = t.setPort p ((t.port p).answered (t.port p).requests (a.response f)) := by
    unfold ConsumerPort.answered
    split
    next outbound =>
      have silent : (t.port p).responses = [] := by
        rw [responses]
        exact (h.port_restful p (fun down => by simp [ConsumerPort.isUp, down] at up) (link ▸ outbound)).1
      rw [arbitrate_responds (r := a.response f) (rest := []) (by rw [port]; exact up') (by rw [port]; exact outbound)
        (by rw [port, silent]; rfl), port]
      dsimp only
      rw [answers, respond, State.setPort_setPort, ← silent]
    next g outbound =>
      rw [arbitrate_busy (by rw [port]; simp [outbound])]
      rfl
  have still : ((t.port p).answered (t.port p).requests (a.response f)).stalling = false := by
    unfold ConsumerPort.answered
    split <;> exact stops
  rw [settle_at (u := u) h windows bands (fun q ne => (State.port_setPort_ne _ _ ne).trans (others q ne)), chosen,
    State.port_setPort_self, State.setPort_setPort, judgeStall, if_neg (by rw [still]; exact Bool.false_ne_true)]

theorem grantCredit_range {p : Port} {n : Nat} (s : State) (beyond : ¬(1 ≤ n ∧ n ≤ 64)) : grantCredit p n s = (s, { code := .range }) :=
  if_neg beyond

/-- Whether a request's answer is given before or after the stall timer is stopped. -/
theorem answered_stopped (c : ConsumerPort) (rest : List RequestFrame) (x : Response) :
    ({ ({ c with requests := rest } : ConsumerPort).answered rest x with stall := none } : ConsumerPort)
      = ({ c with stall := none } : ConsumerPort).answered rest x := by
  rcases c with ⟨_, _, _, _, _, _ | _⟩
  · rfl
  · rfl

theorem exec_grant {s : State} {p : Port} {tag : Byte} {rest : List RequestFrame} {n : Nat} (h : Settled s)
    (taken : Taken s p ((Request.grant n).frame tag) rest) (fits : n < 256) : exec (.grant p) s = .next (
      if 1 ≤ n ∧ n ≤ 64 then
        answered p rest (responseTo (.grant n) tag { code := .done, data := .credit (min 64 ((s.port p).credit + n)) })
          (s.setPort p { s.port p with state := .live, credit := min 64 ((s.port p).credit + n), stall := none })
      else answered p rest (responseTo (.grant n) tag { code := .range }) s) := by
  set frame := (Request.grant n).frame tag
  have kind : frame.requestKind = some .grant := Request.frame_kind _ tag
  have read : ∀ u, withFields readByte (grantCredit p) frame u = grantCredit p n u := withFields_read (readByte_leBytes fits)
  split
  next inRange =>
    set credit := min 64 ((s.port p).credit + n) with sum
    set revived : ConsumerPort := { s.port p with requests := rest, state := .live, credit := credit } with lives
    have acts : withFields readByte (grantCredit p) frame (requestLeft p rest s)
        = (s.setPort p revived, { code := .done, data := .credit credit }) := by
      rw [read, grantCredit, if_pos (show 1 ≤ n ∧ n ≤ Config.creditMax from inRange), requestLeft, State.port_setPort_self]
      exact congrArg (·, _) (State.setPort_setPort _ _ _ _)
    have some : credit ≠ 0 := by omega
    have port : (s.setPort p revived).port p = revived := State.port_setPort_self _ _ _
    refine (takeRequest_taken taken kind acts).trans (congrArg _ ?_)
    rw [settle_respond_at (t := s.setPort p revived) h rfl rfl (fun q ne => State.port_setPort_ne _ _ ne) taken.isUp
      (by rw [port]; rfl) (by rw [port])
      (by rw [port]) (by rw [port]; simp [ConsumerPort.stalling, lives, some]), port, State.setPort_setPort]
    rw [answered, State.port_setPort_self, State.setPort_setPort]
    exact congrArg (s.setPort p) (answered_stopped { s.port p with state := .live, credit := credit } rest _)
  next beyond => exact takeRequest_answered h taken kind ((read _).trans (grantCredit_range _ beyond))

/-! ### SET_STORE (R109, R149) -/

/-- A judgment of pressure raises PRESSURE at every LIVE port where it changes the pressure, and nothing otherwise (R108). -/
theorem judgePressure_changes (s : State) :
    ((judgePressure s).bsc.pressure ≠ s.bsc.pressure → Raised (fun q => (s.port q).isLive) .pressure s (judgePressure s))
    ∧ ((judgePressure s).bsc.pressure = s.bsc.pressure → NothingRaised s (judgePressure s)) := by
  rw [judgePressure_bsc]
  dsimp only
  refine ⟨fun changed p => ?_, fun same p => ?_⟩
  · rw [judgePressure_spec, if_neg changed]
    exact raiseWhere_pendingSet _ _ _ p
  · rw [judgePressure_spec, if_pos same]

theorem setStore_range {f : StoreFields} (s : State) (beyond : 1024 < f.reserve ∨ f.stallTimeout < 1 ∨ 1000 < f.stallTimeout) :
    setStore f s = (s, { code := .range }) := by
  have refused : ¬f.inRange = true := by
    rw [StoreFields.inRange, decide_eq_true_iff]
    omega
  rw [setStore, if_neg refused]
  rfl

/-- The state with SET_STORE's record stored, before pressure is judged against it. -/
def stored (f : StoreFields) (s : State) : State :=
  (s.withShared { s.shared with stallTimeout := f.stallTimeout, standby := f.standby }).withBsc { s.bsc with reserve := f.reserve }

theorem setStore_done {f : StoreFields} (s : State) (reserve : f.reserve ≤ 1024) (least : 1 ≤ f.stallTimeout) (most : f.stallTimeout ≤ 1000) :
    setStore f s = (if f.reserve ≠ s.bsc.reserve then judgePressure (stored f s) else stored f s, { code := .done }) := by
  have inRange : f.inRange = true := by
    rw [StoreFields.inRange, decide_eq_true_iff]
    exact ⟨reserve, least, most⟩
  rw [setStore, if_pos inRange]
  rfl

/-- What SET_STORE's record in range makes of the state: the store's record with pressure judged where the reserve changes, and PRESSURE
raised where it changes. -/
theorem setStore_spec {f : StoreFields} (s : State) (reserve : f.reserve ≤ 1024) (least : 1 ≤ f.stallTimeout)
    (most : f.stallTimeout ≤ 1000) : ∃ t, setStore f s = (t, { code := .done })
      ∧ t.shared = { s.shared with standby := f.standby, stallTimeout := f.stallTimeout }
      ∧ t.bsc = { s.bsc with
          reserve := f.reserve
          pressure := if f.reserve = s.bsc.reserve then s.bsc.pressure else pressureAfter s.bsc.pressure f.reserve s.bsc.free.length }
      ∧ t.windows = s.windows ∧ OnlyRaises s t ∧ State.Agree [.bsc, .ports, .shared] s t
      ∧ (t.bsc.pressure ≠ s.bsc.pressure → Raised (fun q => (s.port q).isLive) .pressure s t)
      ∧ (t.bsc.pressure = s.bsc.pressure → NothingRaised s t) := by
  have stores : State.Agree [.bsc, .ports, .shared] s (stored f s) :=
    (agree_withShared s _ (by decide)).trans (agree_withBsc _ _ (by decide))
  have port : ∀ q, (stored f s).port q = s.port q := fun _ => rfl
  refine ⟨_, setStore_done s reserve least most, ?_⟩
  by_cases same : f.reserve = s.bsc.reserve
  · rw [if_neg (not_not.mpr same)]
    refine ⟨rfl, by rw [if_pos same]; rfl, rfl, .of_ports rfl, stores, fun changed => absurd rfl changed, fun _ _ => rfl⟩
  · rw [if_pos same]
    have judged := judgePressure_bsc (stored f s)
    have agree : State.Agree [.bsc, .ports] (stored f s) (judgePressure (stored f s)) := judgePressure_agree _ (by decide) (by decide)
    refine ⟨(agree.shared (by decide)).trans rfl, ?_, (agree.windows (by decide)).trans rfl,
      (OnlyRaises.of_ports rfl).trans (judgePressure_raises _), stores.trans (agree.mono (by decide)), ?_, ?_⟩
    · rw [judged, if_neg same]; rfl
    · exact (judgePressure_changes (stored f s)).1
    · exact (judgePressure_changes (stored f s)).2

/-- The end of an event that begins no strip changes the ports alone. -/
theorem settle_agree_ports {s : State} (none : NoStrip s (settle s)) : State.Agree [.ports] s (settle s) where
  pending := fun _ => settle_pending s
  now := fun _ => settle_now s
  mu := fun _ => settle_mu s
  ru := fun _ => settle_ru s
  lanes := fun _ => settle_lanes s
  cb := fun _ => settle_cb s
  le := fun _ => settle_le s
  bsc := fun _ => settle_bsc s
  dram := fun _ => settle_dram s
  windows := fun _ => none.windows
  ports := fun listed => absurd List.mem_cons_self listed
  shared := fun _ => settle_shared s
  mku := fun _ => settle_mku s

/-- The end of an event after an answer whose request raised notices alone begins no strip. -/
theorem settle_respond_noStrip {s t : State} {p : Port} {f : RequestFrame} {a : Answer} {rest : List RequestFrame} (h : Settled s)
    (windows : t.windows = s.windows) (bands : t.bsc.bands = s.bsc.bands) (raises : OnlyRaises (requestLeft p rest s) t) :
    NoStrip (respond p f a t) (settle (respond p f a t)) := by
  refine settle_noStrip fun q => ?_
  have port : ∃ requests responses pending notice, (respond p f a t).port q = { s.port q with
      requests := requests, responses := responses, pendingSet := pending, notice := notice } := by
    obtain ⟨pending, notice, raised⟩ := raises.kept q
    rw [requestLeft, State.port_setPort] at raised
    rw [respond, State.port_setPort]
    split
    next own =>
      rw [if_pos own] at raised
      rw [← own, raised, ← own]
      exact ⟨_, _, _, _, rfl⟩
    next other =>
      rw [if_neg other] at raised
      rw [raised]
      exact ⟨_, _, _, _, rfl⟩
  obtain ⟨_, _, _, _, port⟩ := port
  refine (h.atRest q).mono (by rw [port]; exact id) (by rw [port]; exact id) (by rw [port]) (by rw [port]; exact fun _ => id) fun e => ?_
  rw [show (respond p f a t).windows = t.windows from rfl, show (respond p f a t).bsc = t.bsc from rfl, windows, bands]
  exact id

theorem requestLeft_isLive (p : Port) (rest : List RequestFrame) (s : State) (q : Port) :
    ((requestLeft p rest s).port q).isLive = (s.port q).isLive := by
  rw [requestLeft, State.port_setPort]
  split
  next own => rw [own]; rfl
  · rfl

theorem exec_setStore {s : State} {p : Port} {tag : Byte} {rest : List RequestFrame} {f : StoreFields} (h : Settled s)
    (taken : Taken s p ((Request.setStore f).frame tag) rest) (fits : (Request.setStore f).fits) (holder : s.shared.holder = some p)
    (reserve : f.reserve ≤ 1024) (least : 1 ≤ f.stallTimeout) (most : f.stallTimeout ≤ 1000) : ∃ t, exec (.setStore p) s = .next t
      ∧ t.shared = { s.shared with standby := f.standby, stallTimeout := f.stallTimeout }
      ∧ t.bsc = { s.bsc with
          reserve := f.reserve
          pressure := if f.reserve = s.bsc.reserve then s.bsc.pressure else pressureAfter s.bsc.pressure f.reserve s.bsc.free.length }
      ∧ Delivered s t p rest (responseTo (.setStore f) tag { code := .done })
      ∧ (t.bsc.pressure ≠ s.bsc.pressure → Raised (fun q => (s.port q).isLive) .pressure s t)
      ∧ (t.bsc.pressure = s.bsc.pressure → NothingRaised s t)
      ∧ State.Agree [.bsc, .ports, .shared] s t := by
  set frame := (Request.setStore f).frame tag
  set left := requestLeft p rest s with leaves
  obtain ⟨t, acts, shared, bsc, windows, raises, agree, changed, same⟩ := setStore_spec left reserve least most
  have does : asHolder p (withFields readStore setStore) frame left = (t, { code := .done }) := by
    rw [asHolder_holder (by exact holder), withFields_read (readStore_fields fits), acts]
  set u := respond p frame { code := .done } t with answers
  have none : NoStrip u (settle u) := settle_respond_noStrip h windows (by rw [bsc]; rfl) raises
  have pending : ∀ q, ((settle u).port q).pendingSet = (t.port q).pendingSet := fun q => by
    rw [settle_pendingSet, answers, respond_pendingSet]
  refine ⟨settle u, takeRequest_taken taken (Request.frame_kind _ tag) does, ?_, ?_, ?_, fun other q => ?_, fun equal q => ?_, ?_⟩
  · rw [settle_shared]; exact shared
  · rw [settle_bsc]; exact bsc
  · refine delivered_of_raises h taken.isUp ?_
    obtain ⟨_, _, port⟩ := raises.kept p
    rw [leaves, requestLeft, State.port_setPort_self] at port
    exact ⟨_, _, port⟩
  · rw [settle_bsc] at other
    rw [pending, changed other q, requestLeft_pendingSet]
    exact if_congr (Bool.eq_iff_iff.mp (requestLeft_isLive p rest s q)) rfl rfl
  · rw [settle_bsc] at equal
    rw [pending, same equal q]
    exact requestLeft_pendingSet p rest s q
  · exact (((agree_setPort s p _ (by decide)).trans agree).trans (agree_setPort t p _ (by decide))).trans
      ((settle_agree_ports none).mono (by decide))

/-- Settles O50: a granted port is the one port of a settled state that has changed, and SET_STORE raises notices alone. -/
theorem grantAndSetStore : Obligations.GrantAndSetStore := by
  unfold Obligations.GrantAndSetStore
  refine ⟨fun s p tag rest n h taken fits => exec_grant h taken fits, fun s p tag rest f h taken fits holder =>
    ⟨fun beyond => ?_, fun reserve least most => ?_⟩⟩
  · refine takeRequest_answered h taken (Request.frame_kind _ tag) ?_
    rw [asHolder_holder (by exact holder), withFields_read (readStore_fields fits), setStore_range _ beyond]
  · exact exec_setStore h taken fits holder reserve least most

end Sys2Proof.Machine
end

section
/-!
SUPPORT AND PROOF. The opening, the extension and the seal of a band (R95 to R101, R105, R106, R108).
-/

namespace Sys2Proof.Machine

/-! ### The judgment of pressure at a change of the free count (R108) -/

/-- Pressure judged in a state with the pressure, the reserve, the LIVE ports and the pending sets of another. -/
theorem judgePressure_judged {s u t : State} (pressure : u.bsc.pressure = s.bsc.pressure) (reserve : u.bsc.reserve = s.bsc.reserve)
    (live : ∀ q, (u.port q).isLive = (s.port q).isLive) (pending : ∀ q, (u.port q).pendingSet = (s.port q).pendingSet)
    (judged : t.bsc.pressure = (judgePressure u).bsc.pressure) (free : t.bsc.free = u.bsc.free)
    (raised : ∀ q, (t.port q).pendingSet = ((judgePressure u).port q).pendingSet) : PressureJudged s t := by
  obtain ⟨changes, keeps⟩ := judgePressure_changes u
  rw [← judged, pressure] at changes keeps
  refine ⟨?_, fun changed q => ?_, fun same q => ?_⟩
  · rw [judged, judgePressure_bsc, free, pressure, reserve]
    rfl
  · rw [raised, changes changed q, pending]
    exact if_congr (Bool.eq_iff_iff.mp (live q)) rfl rfl
  · rw [raised, keeps same q, pending]

/-! ### Placements -/

theorem tableGet_single {α : Type} (k : Nat) (x : α) : tableGet [(k, x)] k = some x := by simp [tableGet]

/-- The samples that a line leaves in a band that it opens (R96, R97). -/
theorem bandContent_opened {mem : List Host.Cell} {slot irl : Nat} {b : Band} {fill : Byte} {samples : Option (List Byte)}
    {width : Nat} (block : b.block = irl / 64)
    (presence : b.presence = if samples.isSome then [(irl, ((samples.getD []).take width).length)] else [])
    (written : ∀ i, i < ((samples.getD []).take width).length →
      dramRead mem (slot * 524288 + irl % 64 * 8192 + i) = ((samples.getD []).take width)[i]?.getD 0) (q : Nat) :
    bandContent mem slot b fill irl q = ((samples.getD []).take width)[q]?.getD fill := by
  set kept := (samples.getD []).take width with cut
  have count : (tableGet b.presence irl).getD 0 = kept.length := by
    rw [presence]
    cases samples with
    | none =>
      have empty : kept = [] := List.take_nil
      rw [empty]
      rfl
    | some ys => exact congrArg (Option.getD · 0) (tableGet_single irl kept.length)
  have row : irl - 64 * b.block = irl % 64 := by omega
  rw [bandContent_eq, count, row]
  split
  next within =>
    rw [written q within, List.getElem?_eq_getElem within]
    rfl
  next beyond => rw [List.getElem?_eq_none (Nat.le_of_not_lt beyond)]; rfl

theorem fits_iff (x : Placement) (b : Band) :
    x.fits b = true ↔ b.rn = x.rn ∧ b.block = x.irl / 64 ∧ b.width = x.width ∧ b.base = x.base := by
  rw [Placement.fits, Bool.and_eq_true, Bool.and_eq_true, Bool.and_eq_true, decide_eq_true_iff, decide_eq_true_iff, decide_eq_true_iff,
    decide_eq_true_iff, and_assoc, and_assoc]
  rfl

/-- A line that opens a band at the head of the free list. -/
theorem place_opens {x : Placement} {s : State} {slot : Nat} {free : List Nat} (idle : s.bsc.filling.get x.lane = none)
    (head : s.bsc.free = slot :: free) (inStore : slot < 4096) (inLine : x.width ≤ 8192) :
    let kept := (x.samples.getD []).take x.width
    let b : Band := {
      lane := x.lane, rn := x.rn, block := x.irl / 64, startIrl := x.irl, lastIrl := x.irl
      presence := if x.samples.isSome then [(x.irl, kept.length)] else []
      startStamp := x.stamp, width := x.width, base := x.base,
      partialStart := decide (64 * (x.irl / 64) < x.firstIrl ∧ x.irl = x.firstIrl), test := !x.camera,
      overrun := s.bsc.overrunPending.get x.lane, sealing := none }
    ∃ t, place x s = (if x.irl % 64 = 63 then sealBand x.lane false t else t)
    ∧ t.band slot = some b ∧ (∀ other, other ≠ slot → t.band other = s.band other)
    ∧ t.bsc.free = free ∧ t.bsc.filling = s.bsc.filling.set x.lane (some slot)
    ∧ t.bsc.overrunPending = s.bsc.overrunPending.set x.lane false
    ∧ t.bsc.overrunLines = s.bsc.overrunLines ∧ t.bsc.sealSequence = s.bsc.sealSequence ∧ t.bsc.reserve = s.bsc.reserve
    ∧ PressureJudged s t
    ∧ (∀ fill q, bandContent t.dram slot b fill x.irl q = kept[q]?.getD fill)
    ∧ (∀ a, a < slot * 524288 + x.irl % 64 * 8192 ∨ slot * 524288 + x.irl % 64 * 8192 + kept.length ≤ a →
        dramRead t.dram a = dramRead s.dram a)
    ∧ State.Agree [.bsc, .dram, .ports] s t := by
  intro kept b
  set opened := bandOpened slot free x s with opens
  have judged : State.Agree [.bsc, .ports] opened (judgePressure opened) := judgePressure_agree _ (by decide) (by decide)
  obtain ⟨t, extended, bsc, bytes, agree⟩ := extendBand_spec x (judgePressure opened) slot (openedBand x (s.bsc.overrunPending.get x.lane))
    rfl rfl inStore inLine
  have record : ({ openedBand x (s.bsc.overrunPending.get x.lane) with
      lastIrl := x.irl
      presence := (openedBand x (s.bsc.overrunPending.get x.lane)).presence ++ if x.samples.isSome then [(x.irl, kept.length)] else [] } : Band)
      = b := by
    simp [openedBand, Placement.block, Config.blockLines, b]
    rfl
  have dram : (judgePressure opened).dram = s.dram := judged.dram (by decide)
  rw [judgePressure_bsc] at bsc
  rw [dram] at bytes
  refine ⟨t, ?_, ?_, fun other ne => ?_, ?_, ?_, ?_, ?_, ?_, ?_, ?_, fun fill q => ?_, fun a outside => ?_, ?_⟩
  · rw [place_idle idle, openBand_free head]; exact extended
  · rw [State.band, bsc, tableGet_put, if_pos rfl, ← record]
  · rw [State.band, bsc, tableGet_put, if_neg ne]
    exact (bandOpened_band (free := free) other).trans (if_neg ne)
  · rw [bsc]; rfl
  · rw [bsc]; rfl
  · rw [bsc]; rfl
  · rw [bsc]; rfl
  · rw [bsc]; rfl
  · rw [bsc]; rfl
  · have ports : t.ports = (judgePressure opened).ports := agree.ports (by decide)
    refine judgePressure_judged (u := opened) rfl rfl (fun _ => rfl) (fun _ => rfl) (by rw [bsc, judgePressure_bsc]) (by rw [bsc])
      fun q => ?_
    rw [State.port, ports]
    rfl
  · refine bandContent_opened rfl rfl (fun i within => ?_) q
    rw [bytes]
    dsimp only
    rw [if_pos ⟨Nat.le_add_right _ _, Nat.add_lt_add_left within _⟩, Nat.add_sub_cancel_left]
  · rw [bytes]
    dsimp only
    exact if_neg fun ⟨least, most⟩ => outside.elim (Nat.not_lt_of_le least) (Nat.not_le_of_lt most)
  · exact ((agree_withBsc s _ (by decide)).trans (judged.mono (by decide))).trans (agree.mono (by decide))

/-! ### Seals (R105, R106) -/

/-- Of the ports, the queues and the counts of entries dropped alone may change. -/
def OnlyQueues (s t : State) : Prop := ∀ p, ∃ essential sheddable dropped, t.port p = { s.port p with
  essential := essential, sheddable := sheddable, dropped := dropped }

theorem OnlyQueues.refl (s : State) : OnlyQueues s s := fun _ => ⟨_, _, _, rfl⟩

theorem OnlyQueues.trans {s t u : State} (h : OnlyQueues s t) (g : OnlyQueues t u) : OnlyQueues s u := fun p => by
  obtain ⟨_, _, _, first⟩ := h p
  obtain ⟨_, _, _, second⟩ := g p
  exact ⟨_, _, _, by rw [second, first]⟩

theorem matchWindow_queues (slot : Nat) (b : Band) (acc : State × Nat) (id : Nat) : OnlyQueues acc.1 (matchWindow slot b acc id).1 := by
  unfold matchWindow
  split
  · exact .refl _
  next w _ =>
    split
    · split
      · intro p
        show ∃ _ _ _, (acc.1.setPort w.owner _).port p = _
        rw [State.port_setPort]
        split
        next own =>
          rw [own]
          cases (clipEntry slot id w b).cls <;> exact ⟨_, _, _, rfl⟩
        · exact ⟨_, _, _, rfl⟩
      · intro p
        show ∃ _ _ _, ((putWindow id { w with gap := true, dropped := w.dropped + 1 } acc.1).setPort w.owner _).port p = _
        rw [State.port_setPort]
        split
        next own => rw [own]; exact ⟨_, _, _, rfl⟩
        · exact ⟨_, _, _, rfl⟩
    · exact .refl _

theorem matchBand_queues (slot : Nat) (b : Band) (s : State) : OnlyQueues s (matchBand slot b s).1 := by
  have fold : ∀ (ids : List Nat) (acc : State × Nat), OnlyQueues acc.1 (ids.foldl (matchWindow slot b) acc).1 := by
    intro ids
    induction ids with
    | nil => exact fun _ => .refl _
    | cons id ids ih => exact fun acc => (matchWindow_queues slot b acc id).trans (ih _)
  exact fold _ (s, 0)

/-- A seal whose matching made no entry frees the slot (R106). -/
theorem sealBand_frees {k : Lane} {slot : Nat} {b : Band} {s : State} (stop : Bool) (filling : s.bsc.filling.get k = some slot)
    (band : s.band slot = some b) (none : (sealMatched k stop slot b s).2 = 0) :
    sealBand k stop s = freeSlot slot (sealMatched k stop slot b s).1 := by rw [sealBand_eq stop filling band, if_pos none]

/-- A seal whose matching made entries leaves the band HELD by them (R106). -/
theorem sealBand_holds {k : Lane} {slot : Nat} {b : Band} {s : State} (stop : Bool) (filling : s.bsc.filling.get k = some slot)
    (band : s.band slot = some b) (made : 1 ≤ (sealMatched k stop slot b s).2) : sealBand k stop s
      = putBand slot { b with sealing := some { sealRecord k stop b s with holders := (sealMatched k stop slot b s).2 } }
        (sealMatched k stop slot b s).1 := by rw [sealBand_eq stop filling band, if_neg (Nat.one_le_iff_ne_zero.mp made)]

theorem sealMatched_port (k : Lane) (stop : Bool) (slot : Nat) (b : Band) (s : State) (q : Port) :
    (((sealMatched k stop slot b s).1.port q).isLive = (s.port q).isLive)
    ∧ ((sealMatched k stop slot b s).1.port q).pendingSet = (s.port q).pendingSet := by
  obtain ⟨_, _, _, port⟩ := matchBand_queues slot (sealedBand k stop b s) (sealBegun k s) q
  rw [show (sealMatched k stop slot b s).1.port q = _ from port]
  exact ⟨rfl, rfl⟩

/-- What a seal of a filling band does (R105, R106, R108). -/
theorem sealBand_seals {s : State} {k : Lane} {slot : Nat} {b : Band} (stop : Bool) (filling : s.bsc.filling.get k = some slot)
    (band : s.band slot = some b) : let t := sealBand k stop s
    let m := sealMatched k stop slot b s
    t.bsc.filling = s.bsc.filling.set k none ∧ t.bsc.sealSequence = s.bsc.sealSequence + 1
    ∧ t.bsc.overrunPending = s.bsc.overrunPending ∧ t.bsc.overrunLines = s.bsc.overrunLines ∧ t.bsc.reserve = s.bsc.reserve
    ∧ (∀ other, other ≠ slot → t.band other = s.band other)
    ∧ (m.2 = 0 → t.band slot = none ∧ t.bsc.free = s.bsc.free ++ [slot] ∧ PressureJudged s t)
    ∧ (1 ≤ m.2 → t.bsc.free = s.bsc.free ∧ t.bsc.pressure = s.bsc.pressure ∧ NothingRaised s t
      ∧ t.band slot = some { b with sealing := some { sealRecord k stop b s with holders := m.2 } })
    ∧ t.windows = m.1.windows
    ∧ (∀ p cls, (t.port p).queue cls = (m.1.port p).queue cls) ∧ (∀ p, (t.port p).dropped = (m.1.port p).dropped)
    ∧ State.Agree [.bsc, .windows, .ports] s t := by
  intro t m
  have agree : State.Agree [.bsc, .windows, .ports] s t := sealBand_agree k stop s
  have bsc : m.1.bsc = { s.bsc with filling := s.bsc.filling.set k none, sealSequence := s.bsc.sealSequence + 1 } :=
    sealMatched_bsc k stop slot b s
  have filled : t.bsc.filling = s.bsc.filling.set k none := sealBand_filling k stop s
  have others : ∀ other, other ≠ slot → t.band other = s.band other := fun other ne =>
    sealBand_band_of_ne stop fun same => ne (Option.some.inj (same.symm.trans filling))
  rcases Nat.eq_zero_or_pos m.2 with none | made
  · have freed : t = freeSlot slot m.1 := sealBand_frees stop filling band none
    have raises : OnlyRaises m.1 t := by rw [freed]; exact freeSlot_raises slot m.1
    have record := freeSlot_bsc slot m.1
    rw [← freed, bsc] at record
    have free : t.bsc.free = s.bsc.free ++ [slot] := by rw [record]
    refine ⟨filled, by rw [record], by rw [record], by rw [record], by rw [record], others, fun _ => ⟨?_, free, ?_⟩,
      fun some => absurd none (Nat.one_le_iff_ne_zero.mp some), ?_, fun p cls => ?_, fun p => ?_, agree⟩
    · rw [freed, freeSlot_band, if_pos rfl]
    · refine judgePressure_judged
        (u := m.1.withBsc { m.1.bsc with bands := tableErase m.1.bsc.bands slot, free := m.1.bsc.free ++ [slot] })
        (by rw [State.withBsc_bsc, bsc]) (by rw [State.withBsc_bsc, bsc]) (fun q => (sealMatched_port k stop slot b s q).1)
        (fun q => (sealMatched_port k stop slot b s q).2) (by rw [freed]; rfl) ?_ fun q => by rw [freed]; rfl
      rw [free, State.withBsc_bsc, bsc]
    · rw [freed]
      exact (freeSlot_agree (A := [.bsc, .ports]) slot m.1 (by decide) (by decide)).windows (by decide)
    all_goals
      obtain ⟨_, _, port⟩ := raises.kept p
      rw [port]
    cases cls <;> rfl
  · set c : Band := { b with sealing := some { sealRecord k stop b s with holders := m.2 } }
    have held : t = putBand slot c m.1 := sealBand_holds stop filling band made
    have record : t.bsc = { m.1.bsc with bands := tablePut m.1.bsc.bands slot c } := by rw [held]; rfl
    have port : ∀ p, t.port p = m.1.port p := fun p => by rw [held]; rfl
    rw [bsc] at record
    refine ⟨filled, by rw [record], by rw [record], by rw [record], by rw [record], others,
      fun none => absurd none (Nat.one_le_iff_ne_zero.mp made),
      fun _ => ⟨by rw [record], by rw [record], fun q => ?_, ?_⟩, by rw [held]; rfl, fun p cls => by rw [port], fun p => by rw [port], agree⟩
    · rw [port]; exact (sealMatched_port k stop slot b s q).2
    · rw [State.band, record]
      exact (tableGet_put _ slot slot _).trans (if_pos rfl)

/-- Settles O46: a line opens, extends or seals by the lane's filling band (`place_idle`, `place_filling`), and a seal by the number of
entries that matching made. -/
theorem bandsOpenedAndSealed : Obligations.BandsOpenedAndSealed := by
  unfold Obligations.BandsOpenedAndSealed
  refine ⟨fun x s slot free idle head inStore inLine => place_opens idle head inStore inLine,
    fun x s idle full => by rw [place_idle idle, openBand_full full], fun x s slot b filling band => ?_,
    fun s k stop slot b filling band => sealBand_seals stop filling band⟩
  intro same kept
  refine ⟨fun other => ?_, fun fits inStore inLine => ?_⟩
  · have idle := sealBand_filling_self x.lane false s
    refine ⟨?_, idle⟩
    rw [place_filling filling band, if_neg fun fits => other ((fits_iff x b).mp fits), place_idle idle]
  · have extends_ : x.fits b = true := (fits_iff x b).mpr fits
    obtain ⟨_, block, width, _⟩ := fits
    obtain ⟨t, extended, bsc, bytes, agree⟩ := extendBand_spec x s slot b width block inStore inLine
    refine ⟨t, ?_, ?_, fun index ne => ?_, by rw [bsc], bytes, agree⟩
    · rw [place_filling filling band, if_pos extends_]
      exact extended
    · rw [State.band, bsc]
      exact (tableGet_put _ slot slot _).trans (if_pos rfl)
    · rw [State.band, bsc]
      exact (tableGet_put _ slot index _).trans (if_neg ne)

end Sys2Proof.Machine
end

section
/-!
SUPPORT AND PROOF. What a release, a closure and a failure add to the delivery side: nothing, so that a port at rest stays at rest; the
end of a strip (R107, R119, R135, R139).
-/

namespace Sys2Proof.Machine

/-! ### No window and no sealed band is added -/

/-- Every window that is not FREE and every HELD band was so before. -/
structure NothingAdded (s t : State) : Prop where
  windows : ∀ id, (t.window id).isSome = true → (s.window id).isSome = true
  bands : ∀ slot b r, t.band slot = some b → b.sealing = some r → ∃ c q, s.band slot = some c ∧ c.sealing = some q

namespace NothingAdded

variable {s t u : State}

theorem refl (s : State) : NothingAdded s s := ⟨fun _ => id, fun _ b r band held => ⟨b, r, band, held⟩⟩

theorem trans (h : NothingAdded s t) (g : NothingAdded t u) : NothingAdded s u :=
  ⟨fun id some => h.windows id (g.windows id some), fun slot b r band held => by
    obtain ⟨c, q, band, held⟩ := g.bands slot b r band held
    exact h.bands slot c q band held⟩

theorem of_same (windows : t.windows = s.windows) (bands : t.bsc.bands = s.bsc.bands) : NothingAdded s t :=
  ⟨fun id some => by rwa [State.window, windows] at some, fun slot b r band held => ⟨b, r, by rwa [State.band, bands] at band, held⟩⟩

theorem setPort (s : State) (p : Port) (c : ConsumerPort) : NothingAdded s (s.setPort p c) := of_same rfl rfl

theorem releaseSlot (slot : Nat) (s : State) : NothingAdded s (releaseSlot slot s) where
  windows := fun id some => by rwa [State.window, releaseSlot_windows] at some
  bands := fun other b r band held => by
    by_cases own : other = slot
    · subst own
      cases now : s.band other with
      | none =>
        have same := (releaseSlot_spec other s).2.2 fun c q some => by rw [now] at some; cases some
        rw [same, now] at band
        cases band
      | some c =>
        cases filling : c.sealing with
        | none =>
          have same := (releaseSlot_spec other s).2.2 fun d q some => by
            rw [now] at some
            cases some
            rw [filling]
            exact nofun
          rw [same, now] at band
          cases band
          cases filling.symm.trans held
        | some q => exact ⟨c, q, rfl, filling⟩
    · rw [releaseSlot_band_ne own] at band
      exact ⟨b, r, band, held⟩

theorem failure (s : State) : FailureKept (NothingAdded s) where
  releases := fun slot h => h.trans (.releaseSlot slot _)
  windows := fun _ fewer h => h.trans ⟨fewer, fun _ b r band held => ⟨b, r, band, held⟩⟩
  ports := fun p _ _ _ _ _ _ _ _ h => h.trans (.setPort _ p _)
  adopts := fun _ h => h.trans (.of_same rfl rfl)

theorem beginnable (h : NothingAdded s t) {e : Entry} (able : beginnable t.windows t.bsc.bands e) : beginnable s.windows s.bsc.bands e := by
  obtain ⟨⟨w, window⟩, b, r, band, held⟩ := able
  exact ⟨Option.isSome_iff_exists.mp (h.windows e.window (Option.isSome_iff_exists.mpr ⟨w, window⟩)), h.bands e.slot b r band held⟩

/-- A port that keeps its link, state, credit and next entry stays at rest. -/
theorem atRest (h : NothingAdded s t) {p : Port} (rest : s.AtRest p) (link : (t.port p).outbound = (s.port p).outbound)
    (state : (t.port p).state = (s.port p).state) (credit : (t.port p).credit = (s.port p).credit)
    (next : (t.port p).nextEntry = (s.port p).nextEntry) : t.AtRest p :=
  rest.mono (by rw [link]; exact id) (by rw [state]; exact id) (by rw [credit]) (by rw [next]; exact fun _ => id) fun _ => h.beginnable

end NothingAdded

/-! ### A port at the end of an event -/

/-- A port at the end of an event, whose stall timer is as its conditions ask once its own arbiter has chosen. -/
theorem settle_port_chosen {s : State} {p : Port} {c : ConsumerPort} (own : ∀ u, u.port p = s.port p → (arbitrate u p).port p = c)
    (stall : c.stall.isSome = c.stalling) : (settle s).port p = c := by
  obtain ⟨before, after, split, notBefore, notAfter⟩ := allPorts_split p
  have chosen : (allPorts.foldl arbitrate s).port p = c := by
    rw [split, List.foldl_append, List.foldl_cons, foldl_arbitrate_others after notAfter]
    exact own _ (foldl_arbitrate_others before notBefore)
  rw [settle_port, chosen]
  exact judgeStall_of_settled _ c stall

theorem dropEntry_credit (c : ConsumerPort) : c.dropEntry.credit = c.credit := by
  unfold ConsumerPort.dropEntry
  split <;> rfl

/-- The end of an event returns no credit (R139). -/
theorem settle_credit_le (s : State) (p : Port) : ((settle s).port p).credit ≤ (s.port p).credit := by
  have one : ∀ (s : State) (q : Port), ((arbitrate s q).port p).credit ≤ (s.port p).credit := fun s q => by
    by_cases own : p = q
    · subst own
      rcases arbitrate_cases s p with same | ⟨_, _, _, _, _, begun⟩ | ⟨_, _, _, _, _, e, _, begun⟩
      · rw [same]
      · rw [begun, State.port_setPort_self]
      · rcases beginStrip_cases p e s with same | ⟨_, _, _, _, _, _, strip⟩
        · rw [begun, same]
        · rw [begun, strip, State.port_setPort_self]
          show (s.port p).dropEntry.credit - 1 ≤ _
          rw [dropEntry_credit]
          exact Nat.sub_le _ _
    · rw [(arbitrate_spec s q).2.1 p own]
  have fold : ∀ (ps : List Port) (s : State), ((ps.foldl arbitrate s).port p).credit ≤ (s.port p).credit := by
    intro ps
    induction ps with
    | nil => exact fun _ => Nat.le_refl _
    | cons q ps ih => exact fun s => (ih _).trans (one s q)
  obtain ⟨_, judged⟩ := judgeStall_kept (allPorts.foldl arbitrate s) ((allPorts.foldl arbitrate s).port p)
  rw [settle_port, judged]
  exact fold allPorts s

/-! ### The end of a strip (R119, R139) -/

/-- The state at the end of a strip, before the arbiters choose. -/
def stripSent (p : Port) (e : Entry) (s : State) : State := closingStripEnd e.window (releaseSlot e.slot (frameSent p s))

theorem frameSent_eq (p q : Port) (s : State) :
    (frameSent p s).port q = if q = p then { s.port q with outbound := none } else s.port q := by
  rw [frameSent, State.port_setPort]
  split
  next own => rw [own]
  · rfl

theorem stripSent_port (p q : Port) (e : Entry) (s : State) : ∃ pending notice, (stripSent p e s).port q
    = { (if q = p then { s.port q with outbound := none } else s.port q) with pendingSet := pending, notice := notice } := by
  obtain ⟨pending, notice, port⟩ := (releaseSlot_raises e.slot (frameSent p s)).kept q
  rw [frameSent_eq] at port
  exact ⟨pending, notice, (closingStripEnd_port _ _ _).trans port⟩

theorem stripSent_bsc (p : Port) (e : Entry) (s : State) : (stripSent p e s).bsc = (releaseSlot e.slot (frameSent p s)).bsc :=
  (closingStripEnd_agree (A := [.windows]) e.window _ (by decide)).bsc (by decide)

theorem stripSent_windows (p : Port) (e : Entry) (s : State) : (stripSent p e s).windows = (closingStripEnd e.window s).windows :=
  closingStripEnd_congr e.window (releaseSlot_windows _ _)

theorem stripSent_added (p : Port) (e : Entry) (s : State) : NothingAdded s (stripSent p e s) :=
  (NothingAdded.failure s).closingStripEnd e.window ((NothingAdded.failure s).releases e.slot (.setPort s p _))

/-- The ports other than the one whose strip is sent stay at rest. -/
theorem stripSent_atRest {p q : Port} (e : Entry) {s : State} (h : Settled s) (other : q ≠ p) : (stripSent p e s).AtRest q := by
  obtain ⟨_, _, port⟩ := stripSent_port p q e s
  rw [if_neg other] at port
  exact (stripSent_added p e s).atRest (h.atRest q) (by rw [port]) (by rw [port]) (by rw [port]) (by rw [port]; rfl)

/-- The slot of a strip that is sent: FREE with pressure judged when the last holder leaves, and HELD by one fewer before (R107, R108). -/
theorem stripSent_slot {s : State} {p : Port} {e : Entry} {b : Band} {r : SealRecord} (band : s.band e.slot = some b)
    (held : b.sealing = some r) : let t := settle (stripSent p e s)
    (r.holders = 1 → t.band e.slot = none ∧ t.bsc.free = s.bsc.free ++ [e.slot] ∧ PressureJudged s t)
    ∧ (2 ≤ r.holders → t.band e.slot = some { b with sealing := some { r with holders := r.holders - 1 } }
        ∧ t.bsc.free = s.bsc.free ∧ t.bsc.pressure = s.bsc.pressure ∧ NothingRaised s t) := by
  intro t
  set u := frameSent p s with sent
  have bsc : t.bsc = (releaseSlot e.slot u).bsc := by rw [settle_bsc, stripSent_bsc]
  have tBand : ∀ slot, t.band slot = (releaseSlot e.slot u).band slot := fun slot => by rw [State.band, bsc]; rfl
  have pending : ∀ q, (t.port q).pendingSet = ((releaseSlot e.slot u).port q).pendingSet := fun q => by
    rw [settle_pendingSet, stripSent, closingStripEnd_port]
  have before : ∀ q, (u.port q).isLive = (s.port q).isLive ∧ (u.port q).pendingSet = (s.port q).pendingSet := fun q => by
    rw [frameSent_eq]
    split <;> exact ⟨rfl, rfl⟩
  obtain ⟨last, lowers, _⟩ := releaseSlot_spec e.slot u
  refine ⟨fun one => ?_, fun several => ?_⟩
  · have freed := last b r band held (by omega)
    rw [freed] at bsc tBand pending
    have free : t.bsc.free = s.bsc.free ++ [e.slot] := by rw [bsc, freeSlot_bsc]; rfl
    refine ⟨by rw [tBand, freeSlot_band, if_pos rfl], free, ?_⟩
    exact judgePressure_judged
      (u := u.withBsc { u.bsc with bands := tableErase u.bsc.bands e.slot, free := u.bsc.free ++ [e.slot] })
      rfl rfl (fun q => (before q).1) (fun q => (before q).2) (by rw [bsc]; rfl) free fun q => by rw [pending]; rfl
  · have lowered := lowers b r band held several
    rw [lowered] at bsc tBand pending
    refine ⟨?_, by rw [bsc]; rfl, by rw [bsc]; rfl, fun q => by rw [pending]; exact (before q).2⟩
    rw [tBand]
    exact (tableGet_put s.bsc.bands e.slot e.slot _).trans (if_pos rfl)

/-- Where one port alone may begin a strip, a window that no queued entry of that port names is left as it is. -/
theorem settle_window_unnamed {s : State} {st : Port} {id : Nat} (rest : ∀ q, q ≠ st → s.AtRest q)
    (unnamed : ∀ cls, ∀ e ∈ (s.port st).queue cls, e.window ≠ id) : (settle s).window id = s.window id := by
  rcases settle_strips rest with none | ⟨e, begun⟩
  · rw [State.window, none.windows]; rfl
  · obtain ⟨w, b, r, _, _, _, windows, _⟩ := begun.begun
    obtain ⟨cls, mem⟩ := nextEntry_queued begun.next
    rw [State.window, windows, tableGet_put, if_neg (Ne.symm (unnamed cls e mem))]
    rfl

/-- A waiting response is sent next. -/
theorem stripSent_responds {s : State} {p : Port} {e : Entry} {x : Response} {xs : List Response} (h : Settled s)
    (up : (s.port p).isUp = true) (waits : (s.port p).responses = x :: xs) : let t := settle (stripSent p e s)
    t.port p = { s.port p with
      responses := xs, outbound := some (.response x), pendingSet := (t.port p).pendingSet, notice := (t.port p).notice }
    ∧ t.windows = (closingStripEnd e.window s).windows := by
  intro t
  obtain ⟨pending, notice, port⟩ := stripSent_port p p e s
  rw [if_pos rfl] at port
  have own : t.port p = { s.port p with responses := xs, outbound := some (.response x), pendingSet := pending, notice := notice } :=
    settle_port_chosen (fun u same => by
      rw [arbitrate_responds (r := x) (rest := xs) (by rw [same, port]; exact up) (by rw [same, port]) (by rw [same, port]; exact waits),
        State.port_setPort_self, same, port]) (h.stall p)
  refine ⟨by rw [own], ?_⟩
  rcases settle_strips (s := stripSent p e s) (st := p) (fun q other => stripSent_atRest e h other) with none | ⟨e', begun⟩
  · rw [none.windows, stripSent_windows]
  · obtain ⟨w, b, r, _, _, _, _, strip⟩ := begun.begun
    rw [show (settle (stripSent p e s)).port p = _ from own] at strip
    cases strip

/-- Settles O54: the release by `releaseSlot_spec`, and only the port whose strip is sent may begin another. -/
theorem stripCompletions : Obligations.StripCompletions := by
  unfold Obligations.StripCompletions
  intro s p e f h ok up sends
  have ends : exec (.stripCompletion p) s = .next (settle (stripSent p e s)) := by
    show execStripCompletion p s = _
    unfold execStripCompletion
    rw [sends]
    rfl
  obtain ⟨t, done, agree⟩ := commandFrames (.stripCompletion p) s
  cases ends.symm.trans done
  have rest : ∀ q, q ≠ p → (stripSent p e s).AtRest q := fun q other => stripSent_atRest e h other
  refine ⟨_, ends, fun b r band held => stripSent_slot band held, fun slot ne => ?_, fun w n now closes => ?_,
    fun x xs waits => stripSent_responds h up waits, ?_, agree⟩
  · rw [settle_band, State.band, stripSent_bsc]
    exact releaseSlot_band_ne ne _
  · obtain ⟨_, some⟩ := ok.closing e.window w n now closes
    rw [settle_window_unnamed rest fun cls x mem same => ?_]
    · rw [State.window, stripSent_windows]
      refine (closingStripEnd_window now closes e.window).trans ?_
      rw [if_pos rfl]
      exact if_congr ⟨fun le => by omega, fun one => by omega⟩ rfl rfl
    · obtain ⟨_, _, port⟩ := stripSent_port p p e s
      rw [port, if_pos rfl] at mem
      obtain ⟨_, v, opened, open_, _⟩ := ok.queued p cls x (by cases cls <;> exact mem)
      rw [same] at opened
      cases now.symm.trans opened
      cases closes.symm.trans open_
  · refine (settle_credit_le _ p).trans ?_
    obtain ⟨_, _, port⟩ := stripSent_port p p e s
    rw [port, if_pos rfl]

end Sys2Proof.Machine
end

section
/-!
SUPPORT. The failure of a port (8.8): the slots that it releases, the ports' queues and counts, the losses at the windows, and the strip that a
standby may begin at the end of the event.
-/

namespace Sys2Proof.Machine

/-! ### The slots that are released (R107) -/

/-- HELD bands may have lost holders or their slots; no other slot changed, and the free list grew at its tail alone. -/
structure SlotsReleased (s t : State) : Prop where
  held : ∀ slot b r, s.band slot = some b → b.sealing = some r →
    t.band slot = none ∨ ∃ n, t.band slot = some { b with sealing := some { r with holders := n } }
  others : ∀ slot, (∀ b r, s.band slot = some b → b.sealing ≠ some r) → t.band slot = s.band slot
  free : s.bsc.free <+: t.bsc.free

theorem SlotsReleased.refl (s : State) : SlotsReleased s s where
  held := fun slot b r band held => .inr ⟨r.holders, band.trans (congrArg some (by rw [← held]))⟩
  others := fun _ _ => rfl
  free := ⟨[], List.append_nil _⟩

theorem SlotsReleased.congr {s t u : State} (h : SlotsReleased s t) (bsc : u.bsc = t.bsc) : SlotsReleased s u where
  held := fun slot b r band held => by
    rw [State.band_congr bsc slot]
    exact h.held slot b r band held
  others := fun slot none => (State.band_congr bsc slot).trans (h.others slot none)
  free := by rw [bsc]; exact h.free

theorem SlotsReleased.releaseSlot {s t : State} (h : SlotsReleased s t) (slot : Nat) : SlotsReleased s (releaseSlot slot t) where
  held := fun other b r band held => by
    by_cases own : other = slot
    · subst own
      obtain ⟨last, lowers, none⟩ := releaseSlot_spec other t
      rcases h.held other b r band held with gone | ⟨n, now⟩
      · rw [none fun c q some => by rw [gone] at some; cases some]
        exact .inl gone
      · by_cases one : n ≤ 1
        · rw [last _ _ now rfl one, freeSlot_band, if_pos rfl]
          exact .inl rfl
        · rw [lowers _ _ now rfl (by show 2 ≤ n; omega)]
          exact .inr ⟨n - 1, (tableGet_put t.bsc.bands other other _).trans (if_pos rfl)⟩
    · rw [releaseSlot_band_ne own]
      exact h.held other b r band held
  others := fun other none => by
    have before := h.others other none
    by_cases own : other = slot
    · subst own
      rw [(releaseSlot_spec other t).2.2 fun b r some => none b r (before ▸ some)]
      exact before
    · rw [releaseSlot_band_ne own]
      exact before
  free := h.free.trans (releaseSlot_freed slot t).free

theorem SlotsReleased.failure (s : State) : FailureKept (SlotsReleased s) where
  releases := fun slot h => h.releaseSlot slot
  windows := fun _ _ h => h.congr rfl
  ports := fun _ _ _ _ _ _ _ _ _ h => h.congr rfl
  adopts := fun _ h => h.congr rfl

/-- With the holder counts right after the releases, the bands say what the entries say (R107). -/
theorem SlotsReleased.entriesReleased {s t : State} (h : SlotsReleased s t) (before : SlotsOk s) (after : SlotsOk t) (holders : HoldersOk t) :
    EntriesReleased s t where
  held := fun slot b r band held => by
    rcases h.held slot b r band held with gone | ⟨n, now⟩
    · rw [if_pos (holders.free slot gone)]
      exact ⟨gone, (after.split.free slot).mpr ⟨before.split.bound slot b band, gone⟩⟩
    · obtain ⟨count, least⟩ := holders.held slot _ _ now rfl
      have naming : t.naming slot = n := count
      rw [naming, if_neg (Nat.one_le_iff_ne_zero.mp least)]
      exact now
  others := h.others
  free := by
    obtain ⟨freed, tail⟩ := h.free
    exact ⟨freed, tail.symm⟩

/-! ### Pressure and the pending sets (R108, R171) -/

/-- The store as it was, and PRESSURE pending where it was. -/
theorem SlotsFreed.of_quiet {s t : State} (bsc : t.bsc = s.bsc) (live : ∀ q, (t.port q).isLive = (s.port q).isLive)
    (pending : ∀ q, NoticeSet.has (t.port q).pendingSet .pressure = NoticeSet.has (s.port q).pendingSet .pressure) : SlotsFreed s t where
  filling := by rw [bsc]
  sealSequence := by rw [bsc]
  reserve := by rw [bsc]
  free := by rw [bsc]
  live := live
  pressure := fun ok => by
    obtain ⟨pressure, _⟩ := (SlotsFreed.refl s).pressure ok
    refine ⟨by rw [bsc]; exact pressure, fun q _ => ?_⟩
    rw [pending, bsc]
    simp

theorem raiseWhere_has {sel : Port → ConsumerPort → Bool} {kind other : NoticeKind} (ne : kind ≠ other) (s : State) (q : Port) :
    NoticeSet.has ((raiseWhere sel kind s).port q).pendingSet other = NoticeSet.has (s.port q).pendingSet other := by
  rw [raiseWhere_pendingSet]
  split
  · rw [NoticeSet.has_add, decide_eq_false ne.symm, Bool.false_or]
  · rfl

/-- A raising of any other kind leaves the pressure's notices as they are. -/
theorem SlotsFreed.raises {sel : Port → ConsumerPort → Bool} {kind : NoticeKind} (ne : kind ≠ .pressure) (s : State) :
    SlotsFreed s (raiseWhere sel kind s) :=
  .of_quiet rfl (raiseWhere_raises sel kind s).isLive (raiseWhere_has ne s)

theorem SlotsFreed.failure (s : State) : FailureKept (SlotsFreed s) where
  releases := fun slot h => h.trans (releaseSlot_freed slot _)
  windows := fun _ _ h => h.trans (.of_quiet rfl (fun _ => rfl) fun _ => rfl)
  ports := fun _ _ _ _ _ _ _ _ _ h => h.trans (.setPort _ rfl rfl)
  adopts := fun _ h => h.trans (.raises (by decide) _)

theorem PendingGrows.setPort (s : State) {p : Port} {c : ConsumerPort} (state : c.state = (s.port p).state)
    (pending : c.pendingSet = (s.port p).pendingSet) : PendingGrows s (s.setPort p c) := fun q => by
  rw [State.port_setPort]
  split
  next own => rw [own, state, pending]; exact ⟨rfl, fun _ => id⟩
  · exact ⟨rfl, fun _ => id⟩

theorem PendingGrows.failure (s : State) : FailureKept (PendingGrows s) where
  releases := fun slot h => h.trans (releaseSlot_raises slot _).grows
  windows := fun _ _ h => h.trans (.of_ports rfl)
  ports := fun _ _ _ _ _ _ _ _ _ h => h.trans (.setPort _ rfl rfl)
  adopts := fun _ h => h.trans (raiseWhere_raises _ _ _).grows

/-! ### The queues and counts of the ports (R146, R147) -/

/-- A port after others: other queues, more entries dropped, and notices. -/
def Requeued (c : ConsumerPort) (queues : DeliveryClass → List Entry) (n : Nat) (d : ConsumerPort) : Prop :=
  ∃ pending notice, d = { c with essential := queues .essential, sheddable := queues .sheddable
                                 dropped := c.dropped + BitVec.ofNat 32 n, pendingSet := pending, notice := notice }

theorem Requeued.queue {c d : ConsumerPort} {queues : DeliveryClass → List Entry} {n : Nat} (h : Requeued c queues n d) (cls : DeliveryClass) :
    d.queue cls = queues cls := by
  obtain ⟨_, _, rfl⟩ := h
  cases cls <;> rfl

theorem Requeued.trans {c d e : ConsumerPort} {first second : DeliveryClass → List Entry} {n m : Nat} (h : Requeued c first n d)
    (g : Requeued d second m e) : Requeued c second (n + m) e := by
  obtain ⟨_, _, rfl⟩ := h
  obtain ⟨_, _, rfl⟩ := g
  exact ⟨_, _, by rw [BitVec.ofNat_add, BitVec.add_assoc]⟩

theorem Requeued.of_raises {s t : State} (h : OnlyRaises s t) (q : Port) : Requeued (s.port q) (s.port q).queue 0 (t.port q) := by
  obtain ⟨pending, notice, port⟩ := h.kept q
  exact ⟨pending, notice, by rw [port]; simp [ConsumerPort.queue]⟩

theorem Requeued.of_ports {s t : State} (ports : t.ports = s.ports) (q : Port) : Requeued (s.port q) (s.port q).queue 0 (t.port q) :=
  .of_raises (.of_ports ports) q

theorem Requeued.setQueue (c : ConsumerPort) (cls : DeliveryClass) (q : List Entry) :
    Requeued c (fun other => if other = cls then q else c.queue other) 0 (c.setQueue cls q) :=
  ⟨c.pendingSet, c.notice, by cases cls <;> simp [ConsumerPort.setQueue, ConsumerPort.queue]⟩

theorem countDropped_requeued (p : Port) (s : State) (q : Port) :
    Requeued (s.port q) (s.port q).queue (if q = p then 1 else 0) ((countDropped p s).port q) := by
  rw [countDropped, State.port_setPort]
  split
  next own => rw [own]; exact ⟨_, _, rfl⟩
  · exact .of_ports rfl q

theorem loseEntry_requeued (p : Port) (s : State) (e : Entry) (q : Port) :
    Requeued (s.port q) (s.port q).queue (if q = p then 1 else 0) ((loseEntry p s e).port q) := by
  have released := Requeued.of_raises (releaseSlot_raises e.slot s) q
  have marked := Requeued.of_ports ((markLost_agree e.window (releaseSlot e.slot s)).ports (by decide)) q
  have counted := (released.trans marked).trans (countDropped_requeued p _ q)
  have same : ((markLost e.window (releaseSlot e.slot s)).port q).queue = (s.port q).queue :=
    funext fun cls => (released.trans marked).queue cls |>.trans (released.queue cls)
  rw [same, Nat.zero_add] at counted
  exact counted

theorem loseEntries_requeued (p : Port) (es : List Entry) : ∀ (s : State) (q : Port),
    Requeued (s.port q) (s.port q).queue (if q = p then es.length else 0) ((es.foldl (loseEntry p) s).port q) := by
  induction es with
  | nil => exact fun s q => by rw [List.length_nil, ite_self]; exact .of_ports rfl q
  | cons e es ih =>
    intro s q
    have first := loseEntry_requeued p s e q
    have rest := ih (loseEntry p s e) q
    have same : ((loseEntry p s e).port q).queue = (s.port q).queue := funext first.queue
    rw [same] at rest
    have both := first.trans rest
    have count : (if q = p then 1 else 0) + (if q = p then es.length else 0) = if q = p then (e :: es).length else 0 := by
      split
      · exact Nat.add_comm _ _
      · rfl
    rwa [count] at both

/-! ### The losses at the windows (R140, R146, R147) -/

/-- A window's record after a number of its entries were lost: only an OPEN one counts them. -/
def Window.lose (w : Window) (n : Nat) : Window :=
  if w.closing = none then { w with gap := w.gap || decide (0 < n), dropped := w.dropped + BitVec.ofNat 32 n } else w

/-- The number of entries of a list that name a window. -/
def lostAt (id : Nat) (es : List Entry) : Nat := es.countP fun e => decide (e.window = id)

theorem lostAt_append (id : Nat) (es fs : List Entry) : lostAt id (es ++ fs) = lostAt id es + lostAt id fs := List.countP_append

theorem lostAt_reverse (id : Nat) (es : List Entry) : lostAt id es.reverse = lostAt id es := List.countP_reverse

theorem Window.lose_closing (w : Window) (n : Nat) : (w.lose n).closing = w.closing := by
  unfold Window.lose
  split <;> rfl

theorem Window.lose_zero (w : Window) : w.lose 0 = w := by
  unfold Window.lose
  split
  · simp
  · rfl

theorem Window.lose_lose (w : Window) (n m : Nat) : (w.lose n).lose m = w.lose (n + m) := by
  rw [Window.lose, Window.lose_closing]
  unfold Window.lose
  split
  · have some : (decide (0 < n) || decide (0 < m)) = decide (0 < n + m) := by
      rw [← Bool.decide_or]
      exact decide_eq_decide.mpr (by omega)
    rw [Bool.or_assoc, some, BitVec.add_assoc, BitVec.ofNat_add]
  · rfl

theorem markLost_window (id other : Nat) (s : State) :
    (markLost id s).window other = (s.window other).map fun w => w.lose (if id = other then 1 else 0) := by
  have same : ∀ o : Option Window, o = o.map fun w => w.lose 0 := fun o => by
    cases o with
    | none => rfl
    | some w => rw [Option.map_some, Window.lose_zero]
  by_cases own : other = id
  · subst own
    rw [if_pos rfl]
    unfold markLost
    cases now : s.window other with
    | none => exact now
    | some w =>
      dsimp only
      split
      next opened =>
        rw [window_putWindow, if_pos rfl, Option.map_some, Window.lose, if_pos (Option.isNone_iff_eq_none.mp opened)]
        simp
      next closes =>
        rw [now, Option.map_some, Window.lose, if_neg fun none => closes (by rw [none]; rfl)]
  · rw [if_neg (Ne.symm own), ← same]
    unfold markLost
    split
    · rfl
    · split
      · rw [window_putWindow, if_neg own]
      · rfl

theorem loseEntry_window (p : Port) (s : State) (e : Entry) (id : Nat) :
    (loseEntry p s e).window id = (s.window id).map fun w => w.lose (if e.window = id then 1 else 0) := by
  show (markLost e.window (releaseSlot e.slot s)).window id = _
  rw [markLost_window, State.window, releaseSlot_windows]
  rfl

theorem loseEntries_window (p : Port) (id : Nat) (es : List Entry) : ∀ s : State,
    (es.foldl (loseEntry p) s).window id = (s.window id).map fun w => w.lose (lostAt id es) := by
  induction es with
  | nil =>
    intro s
    cases now : s.window id with
    | none => exact now
    | some w => exact now.trans (congrArg some w.lose_zero.symm)
  | cons e es ih =>
    intro s
    have count : (if e.window = id then 1 else 0) + lostAt id es = lostAt id (e :: es) := by
      simp [lostAt, List.countP_cons, Nat.add_comm]
    rw [List.foldl_cons, ih, loseEntry_window, Option.map_map]
    refine congrArg (Option.map · _) (funext fun w => ?_)
    exact (w.lose_lose _ _).trans (by rw [count])

/-! ### The standby takes over (R145, R146) -/

/-- The entries of a port's queue that have room behind those of the standby, and those that do not (R146). -/
def State.fits (s : State) (p st : Port) (cls : DeliveryClass) : List Entry :=
  ((s.port p).queue cls).take (256 - ((s.port st).queue cls).length)

def State.excess (s : State) (p st : Port) (cls : DeliveryClass) : List Entry :=
  ((s.port p).queue cls).drop (256 - ((s.port st).queue cls).length)

/-- The queues of a port after one of a failed port's queues has moved to the standby. -/
def State.movedQueues (s : State) (p st : Port) (cls : DeliveryClass) (q : Port) (other : DeliveryClass) : List Entry :=
  if other = cls then if q = p then [] else if q = st then (s.port st).queue cls ++ s.fits p st cls else (s.port q).queue other
  else (s.port q).queue other

theorem moveQueue_eq (p st : Port) (cls : DeliveryClass) (s : State) (ne : st ≠ p) : moveQueue p st cls s
    = (s.excess p st cls).reverse.foldl (loseEntry p)
      ((s.setPort p ((s.port p).setQueue cls [])).setPort st ((s.port st).setQueue cls ((s.port st).queue cls ++ s.fits p st cls))) := by
  unfold moveQueue
  dsimp only
  rw [State.port_setPort_ne _ _ ne]
  rfl

theorem moveQueue_requeued {p st : Port} (ne : st ≠ p) (cls : DeliveryClass) (s : State) (q : Port) :
    Requeued (s.port q) (s.movedQueues p st cls q) (if q = p then (s.excess p st cls).length else 0) ((moveQueue p st cls s).port q) := by
  rw [moveQueue_eq p st cls s ne]
  set moved := (s.setPort p ((s.port p).setQueue cls [])).setPort st
    ((s.port st).setQueue cls ((s.port st).queue cls ++ s.fits p st cls)) with moves
  have first : Requeued (s.port q) (s.movedQueues p st cls q) 0 (moved.port q) := by
    rw [moves, State.port_setPort]
    split
    next own =>
      subst own
      have queues : s.movedQueues p q cls q = fun other => if other = cls then (s.port q).queue cls ++ s.fits p q cls else (s.port q).queue other :=
        funext fun other => by rw [State.movedQueues, if_neg ne, if_pos rfl]
      rw [queues]
      exact .setQueue _ cls _
    next other =>
      rw [State.port_setPort]
      split
      next own =>
        subst own
        have queues : s.movedQueues q st cls q = fun other => if other = cls then [] else (s.port q).queue other :=
          funext fun other => by rw [State.movedQueues, if_pos rfl]
        rw [queues]
        exact .setQueue _ cls _
      next apart =>
        have queues : s.movedQueues p st cls q = (s.port q).queue := funext fun cls' => by
          rw [State.movedQueues, if_neg apart, if_neg other]
          split
          next same => rw [same]
          · rfl
        rw [queues]
        exact .of_ports rfl q
  have rest := loseEntries_requeued p (s.excess p st cls).reverse moved q
  have same : (moved.port q).queue = s.movedQueues p st cls q := funext first.queue
  rw [same, List.length_reverse] at rest
  have both := first.trans rest
  rwa [Nat.zero_add] at both

theorem moveQueue_window {p st : Port} (ne : st ≠ p) (cls : DeliveryClass) (s : State) (id : Nat) :
    (moveQueue p st cls s).window id = (s.window id).map fun w => w.lose (lostAt id (s.excess p st cls)) := by
  rw [moveQueue_eq p st cls s ne, loseEntries_window, lostAt_reverse]
  rfl

/-- What the standby holds of a class after it takes over (R146). -/
def State.joined (s : State) (p st : Port) (cls : DeliveryClass) : List Entry := (s.port st).queue cls ++ s.fits p st cls

/-- The queues of a port after the standby has taken over. -/
def State.adoptedQueues (s : State) (p st q : Port) (cls : DeliveryClass) : List Entry :=
  if q = p then [] else if q = st then s.joined p st cls else (s.port q).queue cls

/-- The queues of the other class are not touched by a move. -/
theorem moveQueue_other {p st : Port} (ne : st ≠ p) {cls other : DeliveryClass} (apart : other ≠ cls) (s : State) (q : Port) :
    ((moveQueue p st cls s).port q).queue other = (s.port q).queue other := by
  rw [(moveQueue_requeued ne cls s q).queue, State.movedQueues, if_neg apart]

theorem adoptAll_requeued {p st : Port} (ne : st ≠ p) (s : State) (q : Port) : Requeued (s.port q) (s.adoptedQueues p st q)
    (if q = p then (s.excess p st .essential).length + (s.excess p st .sheddable).length else 0) ((adoptAll p st s).port q) := by
  set adopted := adoptWindows p st s
  set once := moveQueue p st .essential adopted with first
  set twice := moveQueue p st .sheddable once with second
  have essential : Requeued (s.port q) (s.movedQueues p st .essential q) (if q = p then (s.excess p st .essential).length else 0)
      (once.port q) := moveQueue_requeued ne .essential adopted q
  have kept : ∀ r, (once.port r).queue .sheddable = (s.port r).queue .sheddable := fun r =>
    moveQueue_other ne (by decide) adopted r
  have excess : once.excess p st .sheddable = s.excess p st .sheddable := by rw [State.excess, kept, kept]; rfl
  have fits : once.fits p st .sheddable = s.fits p st .sheddable := by rw [State.fits, kept, kept]; rfl
  have sheddable := moveQueue_requeued ne .sheddable once q
  rw [excess] at sheddable
  have raised := Requeued.of_raises (raiseWhere_raises (fun r c => decide (r = st) && c.isUp) .adopt twice) q
  have queues : (twice.port q).queue = s.adoptedQueues p st q := by
    funext cls
    rw [sheddable.queue]
    cases cls with
    | essential =>
      rw [State.movedQueues, if_neg (by decide), essential.queue, State.movedQueues, if_pos rfl]
      rfl
    | sheddable =>
      rw [State.movedQueues, if_pos rfl, kept, kept, fits]
      rfl
  rw [queues] at raised
  have all := (essential.trans sheddable).trans raised
  have count : ((if q = p then (s.excess p st .essential).length else 0) + if q = p then (s.excess p st .sheddable).length else 0) + 0
      = if q = p then (s.excess p st .essential).length + (s.excess p st .sheddable).length else 0 := by
    split <;> rfl
  rwa [count] at all

theorem adoptAll_window {p st : Port} (ne : st ≠ p) (s : State) (id : Nat) : (adoptAll p st s).window id
    = (s.window id).map fun w => (w.adoptedFrom p st).lose (lostAt id (s.excess p st .essential ++ s.excess p st .sheddable)) := by
  set adopted := adoptWindows p st s
  set once := moveQueue p st .essential adopted
  have kept : ∀ r, (once.port r).queue .sheddable = (s.port r).queue .sheddable := fun r =>
    moveQueue_other ne (by decide) adopted r
  have excess : once.excess p st .sheddable = s.excess p st .sheddable := by rw [State.excess, kept, kept]; rfl
  show (moveQueue p st .sheddable once).window id = _
  rw [moveQueue_window ne, excess, moveQueue_window ne, adoptWindows_window, Option.map_map, Option.map_map]
  refine congrArg (Option.map · _) (funext fun w => ?_)
  exact ((w.adoptedFrom p st).lose_lose _ _).trans (by rw [lostAt_append]; rfl)

/-! ### No standby takes over (R147) -/

/-- The state in which every entry of a failed port is lost. -/
def entriesLost (p : Port) (s : State) : State :=
  ((s.port p).essential ++ (s.port p).sheddable).foldl (loseEntry p) (s.setPort p { s.port p with essential := [], sheddable := [] })

theorem entriesLost_requeued (p : Port) (s : State) (q : Port) : Requeued (s.port q) (fun cls => if q = p then [] else (s.port q).queue cls)
    (if q = p then (s.port p).essential.length + (s.port p).sheddable.length else 0) ((entriesLost p s).port q) := by
  set emptied := s.setPort p { s.port p with essential := [], sheddable := [] } with empties
  have first : Requeued (s.port q) (fun cls => if q = p then [] else (s.port q).queue cls) 0 (emptied.port q) := by
    rw [empties, State.port_setPort]
    split
    next own => subst own; exact ⟨(s.port q).pendingSet, (s.port q).notice, by simp⟩
    · exact .of_ports rfl q
  have rest := loseEntries_requeued p ((s.port p).essential ++ (s.port p).sheddable) emptied q
  rw [funext first.queue, List.length_append] at rest
  have both := first.trans rest
  rwa [Nat.zero_add] at both

theorem entriesLost_window (p : Port) (s : State) (id : Nat) : (entriesLost p s).window id
    = (s.window id).map fun w => w.lose (lostAt id ((s.port p).essential ++ (s.port p).sheddable)) :=
  loseEntries_window p id _ _

/-! ### Who takes over (R144) -/

theorem adopter_iff (s : State) (p st : Port) : adopter p s = some st ↔ TakesOver s p st := by
  unfold adopter TakesOver ConsumerPort.isLive
  cases standby : s.shared.standby with
  | none => simp
  | some r =>
    dsimp only
    split
    next able =>
      rw [Option.some_inj]
      refine ⟨fun own => ?_, And.left⟩
      subst own
      exact ⟨rfl, able.1, beq_iff_eq.mp able.2⟩
    next unable =>
      refine ⟨nofun, fun ⟨own, ne, live⟩ => ?_⟩
      cases own
      exact absurd ⟨ne, beq_iff_eq.mpr live⟩ unable

theorem adopter_none_iff (s : State) (p : Port) : adopter p s = none ↔ ∀ st, ¬TakesOver s p st := by
  rw [Option.eq_none_iff_forall_not_mem]
  exact forall_congr' fun st => not_congr (adopter_iff s p st)

theorem leftOver_takesOver {s : State} {p st : Port} (takes : TakesOver s p st) (cls : DeliveryClass) :
    s.leftOver p cls = s.excess p st cls := by
  obtain ⟨standby, able⟩ := takes
  rw [State.leftOver, standby]
  exact if_pos able

theorem leftOver_none {s : State} {p : Port} (none : ∀ st, ¬TakesOver s p st) (cls : DeliveryClass) :
    s.leftOver p cls = (s.port p).queue cls := by
  unfold State.leftOver
  split
  · rfl
  next st standby => exact if_neg fun able => none st ⟨standby, able⟩

/-! ### The strip that a standby begins (R135 to R137) -/

/-- The losses counted at the windows stand at the end of an event that begins no strip. -/
theorem lossCounted_noStrip {s v : State} {lost : List Entry}
    (counted : ∀ id w x, s.window id = some w → w.closing = none → v.window id = some x → x.closing = none →
      x.gap = (w.gap || decide (0 < lostAt id lost)) ∧ x.dropped = w.dropped + BitVec.ofNat 32 (lostAt id lost)
      ∧ x.sequence = w.sequence ∧ x.sent = w.sent)
    (none : NoStrip v (settle v)) : LossCounted lost s (settle v) := by
  intro id w x now opened then_ open_
  rw [State.window, none.windows] at then_
  obtain ⟨gap, dropped, sequence, sent⟩ := counted id w x now opened then_ open_
  exact ⟨dropped, .inl ⟨gap, sequence, sent⟩⟩

/-- The losses counted at the windows stand at the end of the event, in the records or, for a strip begun since, in its header. -/
theorem lossCounted_settle {s v : State} {st : Port} {lost : List Entry}
    (counted : ∀ id w x, s.window id = some w → w.closing = none → v.window id = some x → x.closing = none →
      x.gap = (w.gap || decide (0 < lostAt id lost)) ∧ x.dropped = w.dropped + BitVec.ofNat 32 (lostAt id lost)
      ∧ x.sequence = w.sequence ∧ x.sent = w.sent)
    (link : (v.port st).outbound = none → (s.port st).outbound = none) (rest : ∀ q, q ≠ st → v.AtRest q) :
    LossCounted lost s (settle v) := by
  rcases settle_strips rest with none | ⟨e, begun⟩
  · exact lossCounted_noStrip counted none
  · intro id w x now opened then_ open_
    obtain ⟨y, b, r, window, _, _, windows, strip⟩ := begun.begun
    rw [State.window, windows, tableGet_put] at then_
    split at then_
    next own =>
      subst own
      cases then_
      obtain ⟨gap, dropped, sequence, sent⟩ := counted e.window w y now opened window open_
      refine ⟨dropped, .inr ⟨rfl, ?_, ?_, st, e, _, link begun.idle, strip, rfl, gap, sequence⟩⟩
      · exact congrArg (· + 1) sequence
      · exact congrArg (· + 1) sent
    · obtain ⟨gap, dropped, sequence, sent⟩ := counted id w x now opened then_ open_
      exact ⟨dropped, .inl ⟨gap, sequence, sent⟩⟩

/-- The entry of a strip leaves the head of its queue. -/
theorem dropEntry_queue {c : ConsumerPort} {e : Entry} (next : c.nextEntry = some e) (cls : DeliveryClass) :
    c.dropEntry.queue cls = c.queue cls ∨ c.queue cls = e :: c.dropEntry.queue cls := by
  unfold ConsumerPort.dropEntry
  unfold ConsumerPort.nextEntry at next
  split
  next x q essential =>
    rw [essential] at next
    cases next
    cases cls with
    | essential => exact .inr essential
    | sheddable => exact .inl rfl
  next essential =>
    rw [essential] at next
    obtain ⟨q, sheddable⟩ := List.head?_eq_some_iff.mp next
    cases cls with
    | essential => exact .inl rfl
    | sheddable => exact .inr (by rw [ConsumerPort.queue, sheddable]; rfl)

theorem entriesMoved_settle {s v : State} {p st : Port} (joined : ∀ cls, (v.port st).queue cls = s.joined p st cls)
    (link : (v.port st).outbound = none → (s.port st).outbound = none) (credit : (v.port st).credit = (s.port st).credit)
    (rest : ∀ q, q ≠ st → v.AtRest q) : EntriesMoved p st s (settle v) := by
  intro cls all
  have whole : (v.port st).queue cls = all := joined cls
  rcases settle_strips rest with none | ⟨e, begun⟩
  · exact .inl (((none.work st).queue cls).trans whole)
  · obtain ⟨_, _, _, _, _, _, _, strip⟩ := begun.begun
    rw [begun.queue, ← whole]
    rcases dropEntry_queue begun.next cls with same | head
    · exact .inl same
    · exact .inr ⟨link begun.idle, credit ▸ begun.credit, e, _, strip, head⟩

end Sys2Proof.Machine
end

section
/-!
SUPPORT AND PROOF. The stall timer's expiry (R142 to R147): a standby takes over the windows and the entries of the port, or every entry is
lost.
-/

namespace Sys2Proof.Machine

/-! ### What a window stands for over losses, an adoption and strips begun (R113, R114) -/

theorem Window.lose_standing (w : Window) (n : Nat) : (w.lose n).standing = w.standing := by
  unfold Window.lose
  split <;> rfl

theorem Window.lose_open {w : Window} (opened : w.closing = none) (n : Nat) :
    w.lose n = { w with gap := w.gap || decide (0 < n), dropped := w.dropped + BitVec.ofNat 32 n } := if_pos opened

theorem Window.adoptedFrom_owned {w : Window} {p : Port} (opened : w.closing = none) (owner : w.owner = p) (st : Port) :
    w.adoptedFrom p st = { w with owner := st, adopted := decide (st ≠ w.origin) } := if_pos ⟨owner, opened⟩

/-- An adoption leaves a window's counts, its sequence and its state. -/
theorem Window.adoptedFrom_counts (w : Window) (p st : Port) :
    ∃ owner adopted, w.adoptedFrom p st = { w with owner := owner, adopted := adopted } := by
  unfold Window.adoptedFrom
  split
  · exact ⟨_, _, rfl⟩
  · exact ⟨w.owner, w.adopted, rfl⟩

theorem arbitrate_standing (s : State) (p : Port) (id : Nat) :
    ((arbitrate s p).window id).map Window.standing = (s.window id).map Window.standing := by
  rcases arbitrate_stripBegun s p with none | ⟨e, begun⟩
  · rw [State.window, none.windows]; rfl
  · obtain ⟨w, _, _, window, _, _, windows, _⟩ := begun.begun
    rw [State.window, windows, tableGet_put]
    split
    next own => rw [own, window]; rfl
    · rfl

theorem settle_standing (s : State) (id : Nat) : ((settle s).window id).map Window.standing = (s.window id).map Window.standing := by
  have fold : ∀ (ps : List Port) (s : State), ((ps.foldl arbitrate s).window id).map Window.standing = (s.window id).map Window.standing := by
    intro ps
    induction ps with
    | nil => exact fun _ => rfl
    | cons p ps ih => exact fun s => (ih _).trans (arbitrate_standing s p id)
  exact fold allPorts s

/-- A window at the end of an event: its parties, its class and its state are as they were. -/
theorem settle_window_stands {s : State} {id : Nat} {w : Window} (now : s.window id = some w) :
    ∃ v, (settle s).window id = some v ∧ v.standing = w.standing := by
  have same := settle_standing s id
  rwa [now, Option.map_some, Option.map_eq_some_iff] at same

/-! ### The failure handling by its two forms (R144) -/

theorem failPort_takesOver {s : State} {p st : Port} (takes : TakesOver s p st) (linkLoss : Bool) :
    failPort p linkLoss s = adoptAll p st s := by
  unfold failPort
  rw [(adopter_iff s p st).mpr takes]

theorem failPort_none {s : State} {p : Port} (none : ∀ st, ¬TakesOver s p st) (linkLoss : Bool) :
    failPort p linkLoss s = releaseAll p linkLoss s := by
  unfold failPort
  rw [(adopter_none_iff s p).mpr none]

/-- The two forms of the statement for a port without a standby that can adopt. -/
theorem not_takesOver_iff (s : State) (p : Port) :
    (∀ st, s.shared.standby = some st → st = p ∨ (s.port st).state ≠ .live) ↔ ∀ st, ¬TakesOver s p st :=
  forall_congr' fun st => by
    rw [TakesOver, not_and, not_and, ← or_iff_not_imp_left.trans (imp_congr_left Iff.rfl)]

/-- The standby has ADOPT pending after it takes over (R145). -/
theorem adoptAll_adopt {s : State} {p st : Port} (takes : TakesOver s p st) :
    NoticeSet.has ((adoptAll p st s).port st).pendingSet .adopt = true := by
  obtain ⟨_, _, live⟩ := takes
  set moved := moveQueue p st .sheddable (moveQueue p st .essential (adoptWindows p st s))
  have kept : (moved.port st).state = .live := by
    have grows := (PendingGrows.failure s).moveQueue p st .sheddable <| (PendingGrows.failure s).moveQueue p st .essential <|
      (PendingGrows.failure s).adoptWindows p st (.refl s)
    rw [(grows st).1, live]
  rw [show adoptAll p st s = raiseAt st .adopt moved from rfl, raiseAt_raisedUp .adopt (by rw [ConsumerPort.isUp, kept]; rfl) st]
  simp [NoticeSet.has_add]

/-- An adopted window at the end of the event (R145). -/
theorem adopted_settles {v : State} {p st : Port} {id n : Nat} {w : Window} (adopted : v.window id = some ((w.adoptedFrom p st).lose n))
    (opened : w.closing = none) (owner : w.owner = p) : ∃ x, (settle v).window id = some x ∧ x.closing = none
      ∧ x.owner = st ∧ x.origin = w.origin ∧ x.adopted = decide (st ≠ w.origin) := by
  rw [Window.adoptedFrom_owned opened owner] at adopted
  obtain ⟨x, final, standing⟩ := settle_window_stands adopted
  rw [Window.lose_standing] at standing
  obtain ⟨ownerIs, originIs, adoptedIs, _, closingIs⟩ := by simpa only [Window.standing, Prod.mk.injEq] using standing
  exact ⟨x, final, closingIs.trans opened, ownerIs, originIs, adoptedIs⟩

/-- The losses that a state after a failure counts at the windows that stay OPEN. -/
theorem lostAt_counted {s v : State} {lost : List Entry} {f : Window → Window}
    (keeps : ∀ w, ∃ owner adopted, f w = { w with owner := owner, adopted := adopted })
    (windows : ∀ id w x, s.window id = some w → w.closing = none → v.window id = some x → x.closing = none →
      x = (f w).lose (lostAt id lost)) :
    ∀ id w x, s.window id = some w → w.closing = none → v.window id = some x → x.closing = none →
      x.gap = (w.gap || decide (0 < lostAt id lost)) ∧ x.dropped = w.dropped + BitVec.ofNat 32 (lostAt id lost)
      ∧ x.sequence = w.sequence ∧ x.sent = w.sent := by
  intro id w x now opened then_ open_
  obtain ⟨owner, adopted, same⟩ := keeps w
  rw [windows id w x now opened then_ open_, same, Window.lose_open (w := { w with owner := owner, adopted := adopted }) opened]
  exact ⟨rfl, rfl, rfl, rfl⟩

/-- The same, from what every window has become. -/
theorem lostAt_counted_map {s v : State} {lost : List Entry} {f : Window → Window}
    (keeps : ∀ w, ∃ owner adopted, f w = { w with owner := owner, adopted := adopted })
    (windows : ∀ id, v.window id = (s.window id).map fun w => (f w).lose (lostAt id lost)) :
    ∀ id w x, s.window id = some w → w.closing = none → v.window id = some x → x.closing = none →
      x.gap = (w.gap || decide (0 < lostAt id lost)) ∧ x.dropped = w.dropped + BitVec.ofNat 32 (lostAt id lost)
      ∧ x.sequence = w.sequence ∧ x.sent = w.sent :=
  lostAt_counted keeps fun id w x now _ then_ _ => by
    rw [windows, now] at then_
    exact (Option.some.inj then_).symm

/-! ### Ports that stay at rest -/

/-- A port that keeps its queues while nothing is added stays at rest. -/
theorem NothingAdded.atRest_requeued {s t : State} (h : NothingAdded s t) {p : Port} (rest : s.AtRest p) {n : Nat}
    (kept : Requeued (s.port p) (s.port p).queue n (t.port p)) : t.AtRest p := by
  obtain ⟨_, _, port⟩ := kept
  exact h.atRest rest (by rw [port]) (by rw [port]) (by rw [port]) (by rw [port]; rfl)

theorem atRest_of_not_live {s : State} {p : Port} (not : (s.port p).state ≠ .live) : s.AtRest p := fun _ live => absurd live not

/-! ### The state at the expiry (R142) -/

/-- The state at the expiry of a port's stall timer, before the failure handling. -/
def stalledState (p : Port) (due : Nat) (s : State) : State :=
  raiseAt p .stall ((s.clockAt due).setPort p { s.port p with state := .stalled, stall := none })

section
variable {s : State} {p : Port} (due : Nat)

theorem stalledState_self : ∃ pending notice, NoticeSet.has pending .stall = true ∧ (stalledState p due s).port p
    = { s.port p with state := .stalled, stall := none, pendingSet := pending, notice := notice } := by
  set stalled := (s.clockAt due).setPort p { s.port p with state := .stalled, stall := none } with stalls
  have port : stalled.port p = { s.port p with state := .stalled, stall := none } := State.port_setPort_self _ _ _
  have raised : NoticeSet.has ((stalledState p due s).port p).pendingSet .stall = true := by
    rw [stalledState, ← stalls, raiseAt_raisedUp .stall (by rw [port]; rfl) p]
    simp [NoticeSet.has_add]
  obtain ⟨pending, notice, kept⟩ := (raiseWhere_raises (fun q c => decide (q = p) && c.isUp) .stall stalled).kept p
  rw [port] at kept
  have same : (stalledState p due s).port p = _ := kept
  rw [same] at raised
  exact ⟨pending, notice, raised, same⟩

theorem stalledState_ne {q : Port} (ne : q ≠ p) : (stalledState p due s).port q = s.port q := by
  rw [stalledState, raiseAt, raiseWhere_port, if_neg (by rw [decide_eq_false ne]; exact nofun), State.port_setPort_ne _ _ ne]
  rfl

theorem stalledState_queue (q : Port) (cls : DeliveryClass) : ((stalledState p due s).port q).queue cls = (s.port q).queue cls := by
  by_cases own : q = p
  · obtain ⟨_, _, _, port⟩ := stalledState_self due (s := s) (p := p)
    rw [own, port]
    cases cls <;> rfl
  · rw [stalledState_ne due own]

theorem stalledState_takesOver (st : Port) : TakesOver (stalledState p due s) p st ↔ TakesOver s p st := by
  show _ ∧ _ ∧ _ ↔ _ ∧ _ ∧ _
  refine and_congr_right fun _ => and_congr_right fun ne => ?_
  rw [stalledState_ne due ne]

/-- The pressure's notices after the failure handling, from the state before the expiry: nobody but the port has left LIVE. -/
theorem pressureReleased_stalled {v : State} (freed : SlotsFreed (stalledState p due s) v) (ok : PressureOk s) :
    PressureReleased (fun _ => True) s (settle v) := by
  obtain ⟨pressure, raised⟩ := freed.pressure (ok.congr rfl rfl rfl)
  refine ⟨by rw [settle_bsc]; exact pressure, fun q _ => ?_⟩
  have before : NoticeSet.has ((stalledState p due s).port q).pendingSet .pressure = NoticeSet.has (s.port q).pendingSet .pressure := by
    rw [stalledState, raiseAt, raiseWhere_has (by decide), State.port_setPort]
    split
    next own => rw [own]
    · rfl
  rw [settle_pendingSet, settle_bsc, ConsumerPort.isLive, settle_state, ← before]
  exact raised q trivial

theorem stalledState_excess (st : Port) (cls : DeliveryClass) : (stalledState p due s).excess p st cls = s.excess p st cls := by
  rw [State.excess, stalledState_queue, stalledState_queue]
  rfl

theorem stalledState_joined (st : Port) (cls : DeliveryClass) : (stalledState p due s).joined p st cls = s.joined p st cls := by
  rw [State.joined, State.fits, stalledState_queue, stalledState_queue]
  rfl

/-- The state after the failure handling of a port whose stall timer has expired. -/
def stallFailed (p : Port) (due : Nat) (s : State) : State := failPort p false (stalledState p due s)

theorem stallFailed_added : NothingAdded s (stallFailed p due s) :=
  (NothingAdded.failure s).failPort p false (.of_same rfl rfl)

/-- The port that is STALLED has nothing to send. -/
theorem stallFailed_state : ((stallFailed p due s).port p).state = .stalled := by
  obtain ⟨_, _, _, port⟩ := stalledState_self due (s := s) (p := p)
  have grows : PendingGrows (stalledState p due s) (stallFailed p due s) := (PendingGrows.failure _).failPort p false (.refl _)
  rw [(grows p).1, port]

theorem stallFailed_stall : NoticeSet.has ((stallFailed p due s).port p).pendingSet .stall = true := by
  obtain ⟨_, _, raised, port⟩ := stalledState_self due (s := s) (p := p)
  have grows : PendingGrows (stalledState p due s) (stallFailed p due s) := (PendingGrows.failure _).failPort p false (.refl _)
  exact (grows p).2 .stall (by rw [port]; exact raised)

/-- What the entries of a port and its losses are after the expiry, from what they are after the failure handling. -/
theorem stallFailed_own {n : Nat} (own : Requeued ((stalledState p due s).port p) (fun _ => []) n ((stallFailed p due s).port p))
    (work : ((stallFailed p due s).port p).SameWork ((settle (stallFailed p due s)).port p)) :
    let t := settle (stallFailed p due s)
    (t.port p).essential = [] ∧ (t.port p).sheddable = [] ∧ (t.port p).credit = (s.port p).credit
      ∧ (t.port p).requests = (s.port p).requests ∧ (t.port p).dropped = (s.port p).dropped + BitVec.ofNat 32 n := by
  obtain ⟨_, _, _, before⟩ := stalledState_self due (s := s) (p := p)
  obtain ⟨_, _, failed⟩ := own
  obtain ⟨_, _, _, _, _, _, _, _, kept⟩ := settle_kept (stallFailed p due s) p
  refine ⟨?_, ?_, ?_, ?_, ?_⟩
  · rw [← ConsumerPort.queue, work.queue, failed]; rfl
  · rw [← ConsumerPort.queue, work.queue, failed]; rfl
  · rw [work.credit, failed, before]
  · rw [kept, failed, before]
  · rw [kept, failed, before]

/-- The expiry where a standby takes over: its entries and windows, and the losses. -/
theorem stallFailed_takesOver {st : Port} (h : Settled s) (takes : TakesOver s p st) : let t := settle (stallFailed p due s)
    let n := (s.excess p st .essential).length + (s.excess p st .sheddable).length
    (Requeued ((stalledState p due s).port p) (fun _ => []) n ((stallFailed p due s).port p)
      ∧ ((stallFailed p due s).port p).SameWork (t.port p))
    ∧ NoticeSet.has (t.port st).pendingSet .adopt = true
    ∧ (∀ id w, s.window id = some w → w.closing = none → w.owner = p → ∃ v, t.window id = some v ∧ v.closing = none
        ∧ v.owner = st ∧ v.origin = w.origin ∧ v.adopted = decide (st ≠ w.origin))
    ∧ EntriesMoved p st s t
    ∧ LossCounted (s.excess p st .essential ++ s.excess p st .sheddable) s t := by
  intro t n
  have ne := takes.2.1
  have stalledTakes := (stalledState_takesOver due st).mpr takes
  have failed : stallFailed p due s = adoptAll p st (stalledState p due s) := failPort_takesOver stalledTakes false
  have requeued : ∀ q, Requeued ((stalledState p due s).port q) ((stalledState p due s).adoptedQueues p st q) (if q = p then n else 0)
      ((stallFailed p due s).port q) := fun q => by
    have all := adoptAll_requeued ne (stalledState p due s) q
    rwa [stalledState_excess, stalledState_excess, ← failed] at all
  have windows : ∀ id, (stallFailed p due s).window id
      = (s.window id).map fun w => (w.adoptedFrom p st).lose (lostAt id (s.excess p st .essential ++ s.excess p st .sheddable)) := fun id => by
    rw [failed, adoptAll_window ne, stalledState_excess, stalledState_excess]
    rfl
  have rest : ∀ q, q ≠ st → (stallFailed p due s).AtRest q := fun q other => by
    by_cases own : q = p
    · rw [own]
      exact atRest_of_not_live (by rw [stallFailed_state]; exact nofun)
    · have kept := requeued q
      have queues : (stalledState p due s).adoptedQueues p st q = (s.port q).queue := funext fun cls => by
        rw [State.adoptedQueues, if_neg own, if_neg other, stalledState_queue]
      rw [stalledState_ne due own, queues] at kept
      exact (stallFailed_added due).atRest_requeued (h.atRest q) kept
  obtain ⟨_, _, standby⟩ := requeued st
  rw [stalledState_ne due ne] at standby
  have link : ((stallFailed p due s).port st).outbound = none → (s.port st).outbound = none := by rw [standby]; exact id
  refine ⟨⟨?_, ?_⟩, ?_, fun id w now opened owner => ?_, ?_, ?_⟩
  · have own := requeued p
    rw [if_pos rfl, show (stalledState p due s).adoptedQueues p st p = fun _ => [] from funext fun _ => if_pos rfl] at own
    exact own
  · rcases settle_strips rest with none | ⟨_, begun⟩
    · exact none.work p
    · exact begun.work p ne.symm
  · rw [settle_pendingSet, failed]
    exact adoptAll_adopt stalledTakes
  · exact adopted_settles ((windows id).trans (congrArg (Option.map _) now)) opened owner
  · refine entriesMoved_settle (fun cls => ?_) link (by rw [standby]) rest
    rw [(requeued st).queue, State.adoptedQueues, if_neg ne, if_pos rfl, stalledState_joined]
  · exact lossCounted_settle (lostAt_counted_map (fun w => w.adoptedFrom_counts p st) windows) link rest

/-- The expiry where nobody takes over: the windows stand, and every entry is lost (R147). -/
theorem stallFailed_none (h : Settled s) (none : ∀ st, ¬TakesOver s p st) : let t := settle (stallFailed p due s)
    let lost := (s.port p).essential ++ (s.port p).sheddable
    (Requeued ((stalledState p due s).port p) (fun _ => []) ((s.port p).essential.length + (s.port p).sheddable.length)
        ((stallFailed p due s).port p)
      ∧ ((stallFailed p due s).port p).SameWork (t.port p))
    ∧ (∀ id, t.window id = (s.window id).map fun w => w.lose (lostAt id lost))
    ∧ LossCounted lost s t := by
  intro t lost
  have failed : stallFailed p due s = entriesLost p (stalledState p due s) :=
    failPort_none (fun st => mt (stalledState_takesOver due st).mp (none st)) false
  have queues : ((stalledState p due s).port p).essential = (s.port p).essential
      ∧ ((stalledState p due s).port p).sheddable = (s.port p).sheddable :=
    ⟨stalledState_queue due p .essential, stalledState_queue due p .sheddable⟩
  have requeued : ∀ q, Requeued ((stalledState p due s).port q) (fun cls => if q = p then [] else ((stalledState p due s).port q).queue cls)
      (if q = p then (s.port p).essential.length + (s.port p).sheddable.length else 0) ((stallFailed p due s).port q) := fun q => by
    have all := entriesLost_requeued p (stalledState p due s) q
    rwa [queues.1, queues.2, ← failed] at all
  have windows : ∀ id, (stallFailed p due s).window id = (s.window id).map fun w => w.lose (lostAt id lost) := fun id => by
    rw [failed, entriesLost_window, queues.1, queues.2]
    rfl
  have rest : ∀ q, (stallFailed p due s).AtRest q := fun q => by
    by_cases own : q = p
    · rw [own]
      exact atRest_of_not_live (by rw [stallFailed_state]; exact nofun)
    · have kept := requeued q
      simp only [if_neg own, stalledState_ne due own] at kept
      exact (stallFailed_added due).atRest_requeued (h.atRest q) kept
  obtain ⟨sameWindows, work⟩ := settle_noStrip rest
  have own := requeued p
  simp only [if_true] at own
  refine ⟨⟨own, work p⟩, fun id => ?_, ?_⟩
  · rw [← windows, State.window, sameWindows]
    rfl
  · exact lossCounted_noStrip (lostAt_counted_map (f := id) (fun w => ⟨w.owner, w.adopted, rfl⟩) windows) ⟨sameWindows, work⟩

end

/-- Settles O55: by who takes over (`stallFailed_takesOver`, `stallFailed_none`); the releases by `SlotsReleased` and `SlotsFreed`. -/
theorem stallExpired : Obligations.StallExpired := by
  unfold Obligations.StallExpired
  intro s p due h live stall c
  have ends : execStallTimerExpiry p s = .next (settle (stallFailed p due s)) := by
    unfold execStallTimerExpiry
    rw [live, stall]
    rfl
  obtain ⟨t, done, agree⟩ := commandFrames (.stallTimerExpiry p) s
  cases (ends.symm.trans done : Host.Outcome.next _ = Host.Outcome.next t)
  set t := settle (stallFailed p due s)
  have state : (t.port p).state = .stalled := (settle_state _ p).trans (stallFailed_state due)
  have stopped : (t.port p).stall = none := by
    rw [← Option.not_isSome_iff_eq_none, (settled_settle (stallFailed p due s)).stall p, stalling_iff, state]
    exact fun stalling => nomatch stalling.1
  have now : t.now = max s.now due := by
    have moved : (stallFailed p due s).now = (stalledState p due s).now := (failPort_agree p false _).now (by decide)
    rw [settle_now, moved]
    rfl
  have released : SlotsOk s → HoldersOk s → EntriesReleased s t := fun slots holders => by
    have slotsAfter : SlotsOk t := slotsOk_kept.execStallTimerExpiry slots ends
    have before : SlotsReleased s (stalledState p due s) := (SlotsReleased.refl s).congr rfl
    exact SlotsReleased.entriesReleased (((SlotsReleased.failure s).failPort p false before).congr (settle_bsc _)) slots slotsAfter
      (holders.execStallTimerExpiry ends)
  have pressure : PressureOk s → PressureReleased (fun _ => True) s t :=
    pressureReleased_stalled due ((SlotsFreed.failure _).failPort p false (.refl _))
  by_cases takes : ∃ st, TakesOver s p st
  · obtain ⟨st, takes⟩ := takes
    obtain ⟨⟨own, work⟩, adopt, windows, moved, lost⟩ := stallFailed_takesOver due h takes
    obtain ⟨essential, sheddable, credit, requests, dropped⟩ := stallFailed_own due own work
    refine ⟨t, ends, now, state, stopped, essential, sheddable, credit, requests, ?_, fun st' standby _ _ => ?_, fun none => ?_, ?_,
      released, pressure, agree⟩
    · rw [settle_pendingSet]; exact stallFailed_stall due
    · cases standby.symm.trans takes.1
      refine ⟨adopt, windows, moved, ?_⟩
      rw [dropped, State.excess, State.excess, List.length_drop, List.length_drop]
      rfl
    · exact absurd takes ((not_takesOver_iff s p).mp none st)
    · rwa [leftOver_takesOver takes, leftOver_takesOver takes]
  · have none : ∀ st, ¬TakesOver s p st := not_exists.mp takes
    obtain ⟨⟨own, work⟩, windows, lost⟩ := stallFailed_none due h none
    obtain ⟨essential, sheddable, credit, requests, dropped⟩ := stallFailed_own due own work
    refine ⟨t, ends, now, state, stopped, essential, sheddable, credit, requests, ?_, fun st standby ne up => ?_,
      fun _ => ⟨fun id w now owner => ?_, fun e mem w now opened => ?_, dropped⟩, ?_, released, pressure, agree⟩
    · rw [settle_pendingSet]; exact stallFailed_stall due
    · exact absurd ⟨standby, ne, up⟩ (none st)
    · refine ⟨_, (windows id).trans (congrArg (Option.map _) now), ?_⟩
      exact (congrArg Prod.fst (w.lose_standing _)).trans owner
    · have counts : 0 < lostAt e.window ((s.port p).essential ++ (s.port p).sheddable) :=
        List.countP_pos_iff.mpr ⟨e, mem, decide_eq_true rfl⟩
      refine ⟨_, (windows e.window).trans (congrArg (Option.map _) now), ?_⟩
      dsimp only
      rw [w.lose_open opened, decide_eq_true counts]
      exact ⟨Bool.or_true _, rfl⟩
    · rwa [leftOver_none none, leftOver_none none]

end Sys2Proof.Machine
end

section
/-!
SUPPORT. A link that is cut, and the windows closed at a link loss (R118 to R120, R140, R148).
-/

namespace Sys2Proof.Machine

/-! ### The strip aborted (R140) -/

/-- A window's record after a link is cut: an OPEN one counts the strip lost, a CLOSING one has one strip in flight less. -/
def Window.aborted (w : Window) (lost : Nat) (flies : Bool) : Option Window :=
  match w.closing with
  | none => some (w.lose lost)
  | some n => if flies then if n ≤ 1 then none else some { w with closing := some (n - 1) } else some w

theorem Window.aborted_open {w : Window} (opened : w.closing = none) (lost : Nat) (flies : Bool) : w.aborted lost flies = some (w.lose lost) := by
  rw [Window.aborted, opened]

theorem Window.aborted_closing {w : Window} {n : Nat} (closes : w.closing = some n) (lost : Nat) (flies : Bool) :
    w.aborted lost flies = if flies then if n ≤ 1 then none else some { w with closing := some (n - 1) } else some w := by
  rw [Window.aborted, closes]

theorem Window.aborted_idle (w : Window) : w.aborted 0 false = some w := by
  cases closing : w.closing with
  | none => rw [w.aborted_open closing, w.lose_zero]
  | some n => rw [w.aborted_closing closing]; rfl

/-- What the abort of a port's strip does, and the entry that it loses. -/
inductive StripAborted (p : Port) (s : State) : State → List Entry → Prop
  | silent (idle : (s.port p).stripWindow = none) : StripAborted p s s []
  | free (e : Entry) (own : (s.port p).stripWindow = some e.window) (now : s.window e.window = none) :
    StripAborted p s (releaseSlot e.slot s) []
  | lost (e : Entry) (w : Window) (own : (s.port p).stripWindow = some e.window) (now : s.window e.window = some w)
    (opened : w.closing = none) : StripAborted p s (loseEntry p s e) [e]
  | counted (e : Entry) (w : Window) (n : Nat) (own : (s.port p).stripWindow = some e.window) (now : s.window e.window = some w)
    (closes : w.closing = some n) : StripAborted p s (closingStripEnd e.window (releaseSlot e.slot s)) []

theorem abortStrip_aborted (p : Port) (s : State) : StripAborted p s (abortStrip p s) (s.abortLost p) := by
  unfold abortStrip State.abortLost
  cases sends : (s.port p).outbound with
  | none => exact .silent (by rw [ConsumerPort.stripWindow, sends])
  | some frame =>
    cases frame with
    | response _ => exact .silent (by rw [ConsumerPort.stripWindow, sends])
    | notice _ => exact .silent (by rw [ConsumerPort.stripWindow, sends])
    | strip e h =>
      have own : (s.port p).stripWindow = some e.window := by rw [ConsumerPort.stripWindow, sends]
      have released : (releaseSlot e.slot s).window e.window = s.window e.window := by rw [State.window, releaseSlot_windows]; rfl
      dsimp only
      rw [released]
      cases now : s.window e.window with
      | none => exact .free e own now
      | some w =>
        cases closing : w.closing with
        | none =>
          simp only [closing, Option.any_some, Option.isNone_none, if_true]
          exact .lost e w own now closing
        | some n =>
          simp only [closing, Option.any_some, Option.isNone_some, if_false, Bool.false_eq_true]
          exact .counted e w n own now closing

theorem abortStrip_window (p : Port) (s : State) (id : Nat) : (abortStrip p s).window id
    = (s.window id).bind fun w => w.aborted (lostAt id (s.abortLost p)) (decide ((s.port p).stripWindow = some id)) := by
  have idle : (s.window id).bind (fun w => w.aborted 0 false) = s.window id := by
    simp only [Window.aborted_idle, Option.bind_fun_some]
  have released : ∀ slot j, (releaseSlot slot s).window j = s.window j := fun slot j => by rw [State.window, releaseSlot_windows]; rfl
  have apart : ∀ e : Entry, id ≠ e.window → decide (some e.window = some id) = false := fun e ne =>
    decide_eq_false fun own => ne (Option.some.inj own).symm
  have aborted := abortStrip_aborted p s
  generalize abortStrip p s = t, s.abortLost p = entries at aborted ⊢
  cases aborted with
  | silent none => rw [none]; exact idle.symm
  | free e own now =>
    rw [own, released]
    by_cases same : id = e.window
    · rw [same, now]; rfl
    · rw [apart e same]; exact idle.symm
  | lost e w own now opened =>
    have lost : lostAt id [e] = if e.window = id then 1 else 0 := by simp [lostAt, List.countP_cons]
    rw [own, loseEntry_window, lost]
    by_cases same : id = e.window
    · rw [same, now, Option.map_some, Option.bind_some, w.aborted_open opened]
    · rw [if_neg (Ne.symm same), apart e same, idle]
      simp only [Window.lose_zero, Option.map_id']
  | counted e w n own now closes =>
    rw [own, closingStripEnd_window ((released _ _).trans now) closes, released]
    by_cases same : id = e.window
    · rw [if_pos same, same, now, Option.bind_some, w.aborted_closing closes, decide_eq_true rfl]
      rfl
    · rw [if_neg same, apart e same]
      exact idle.symm

theorem cutLink_window (p : Port) (s : State) (id : Nat) : (cutLink p s).window id
    = (s.window id).bind fun w => w.aborted (lostAt id (s.abortLost p)) (decide ((s.port p).stripWindow = some id)) := by
  set lost := s.setPort p { s.port p with linkUp := false, stall := none } with unplug
  have port : (lost.port p).outbound = (s.port p).outbound := by rw [unplug, State.port_setPort_self]
  have strip : (lost.port p).stripWindow = (s.port p).stripWindow := by rw [unplug, State.port_setPort_self]; rfl
  have aborts : lost.abortLost p = s.abortLost p := by rw [State.abortLost, port]; rfl
  show (abortStrip p lost).window id = _
  rw [abortStrip_window, aborts, strip]
  rfl

/-- The counts of the ports after a strip is aborted. -/
theorem abortStrip_requeued (p : Port) (s : State) (q : Port) :
    Requeued (s.port q) (s.port q).queue (if q = p then (s.abortLost p).length else 0) ((abortStrip p s).port q) := by
  have aborted := abortStrip_aborted p s
  generalize abortStrip p s = t, s.abortLost p = entries at aborted ⊢
  cases aborted with
  | silent _ => rw [List.length_nil, ite_self]; exact .of_ports rfl q
  | free e _ _ => rw [List.length_nil, ite_self]; exact .of_raises (releaseSlot_raises e.slot s) q
  | lost e _ _ _ _ => exact loseEntry_requeued p s e q
  | counted e _ _ _ _ _ => rw [List.length_nil, ite_self, closingStripEnd_port]; exact .of_raises (releaseSlot_raises e.slot s) q

/-- The other ports keep all but notices when a link is cut. -/
theorem cutLink_other {p q : Port} (ne : q ≠ p) (s : State) : Requeued (s.port q) (s.port q).queue 0 ((cutLink p s).port q) := by
  have aborted := abortStrip_requeued p (s.setPort p { s.port p with linkUp := false, stall := none }) q
  rw [if_neg ne, State.port_setPort_ne _ _ ne] at aborted
  rw [cutLink, State.port_setPort_ne _ _ ne]
  exact aborted

/-- The port whose link is cut. -/
theorem cutLink_self (p : Port) (s : State) : ∃ pending, (cutLink p s).port p = { s.port p with
    linkUp := false, stall := none, outbound := none, responses := [], notice := none, pendingSet := pending
    dropped := (s.port p).dropped + BitVec.ofNat 32 (s.abortLost p).length } := by
  set lost := s.setPort p { s.port p with linkUp := false, stall := none } with unplug
  have port : lost.port p = { s.port p with linkUp := false, stall := none } := State.port_setPort_self _ _ _
  have aborts : lost.abortLost p = s.abortLost p := by rw [State.abortLost, port]; rfl
  obtain ⟨pending, notice, aborted⟩ := abortStrip_requeued p lost p
  rw [if_pos rfl, port, aborts] at aborted
  refine ⟨pending, ?_⟩
  rw [cutLink, State.port_setPort_self, aborted]
  rfl

theorem cutLink_queue (p : Port) (s : State) (q : Port) (cls : DeliveryClass) : ((cutLink p s).port q).queue cls = (s.port q).queue cls := by
  by_cases own : q = p
  · obtain ⟨_, port⟩ := cutLink_self p s
    rw [own, port]
    cases cls <;> rfl
  · exact (cutLink_other own s).queue cls

theorem cutLink_takesOver (p st : Port) (s : State) : TakesOver (cutLink p s) p st ↔ TakesOver s p st := by
  have shared : (cutLink p s).shared = s.shared := (cutLink_agree p s).shared (by decide)
  show _ ∧ _ ∧ _ ↔ _ ∧ _ ∧ _
  rw [shared]
  refine and_congr_right fun _ => and_congr_right fun ne => ?_
  obtain ⟨_, _, port⟩ := cutLink_other ne s
  rw [port]

/-! ### The windows of the port closed (R118, R120) -/

/-- A window's record after its closure: FREE without strips in flight, and CLOSING with them. -/
def Window.retired (strips : Nat) (w : Window) : Option Window := if strips = 0 then none else some { w with closing := some strips }

theorem Window.retired_idem (strips : Nat) (o : Option Window) : (o.bind (Window.retired strips)).bind (Window.retired strips)
    = o.bind (Window.retired strips) := by
  cases o with
  | none => rfl
  | some w =>
    rw [Option.bind_some, Window.retired]
    split
    · rfl
    next flies => rw [Option.bind_some, Window.retired, if_neg flies]

theorem withdrawAll_stripWindow (id : Nat) (cls : DeliveryClass) (s : State) (q : Port) :
    ((withdrawAll id cls s).port q).stripWindow = (s.port q).stripWindow := by
  obtain ⟨_, _, port⟩ := withdrawAll_port id cls s q
  rw [port]
  exact without_stripWindow _ _ _

theorem closeWindow_window (id other : Nat) (s : State) : (closeWindow id s).window other
    = if other = id then (s.window other).bind (Window.retired (stripsInFlight other s)) else s.window other := by
  cases now : s.window id with
  | none =>
    rw [closeWindow_free now]
    split
    next own => rw [own, now]; rfl
    · rfl
  | some w =>
    have flies : stripsInFlight id (withdrawAll id w.cls s) = stripsInFlight id s :=
      stripsInFlight_congr fun q => by rw [withdrawAll_stripWindow]
    have kept : (withdrawAll id w.cls s).window other = s.window other := by rw [State.window, withdrawAll_windows]; rfl
    rw [closeWindow_eq now, retireWindow, flies]
    by_cases own : other = id
    · subst own
      rw [if_pos rfl, now, Option.bind_some, Window.retired]
      split
      · rw [window_eraseWindow, if_pos rfl]
      · rw [window_putWindow, if_pos rfl]
    · rw [if_neg own]
      split
      · rw [window_eraseWindow, if_neg own, kept]
      · rw [window_putWindow, if_neg own, kept]

theorem closeWindow_requeued (id : Nat) (s : State) (q : Port) : ∃ queues, Requeued (s.port q) queues 0 ((closeWindow id s).port q)
    ∧ (∀ cls, (queues cls).Sublist ((s.port q).queue cls))
    ∧ (WindowsOk s → (s.window id).isSome = true → ∀ cls, queues cls = ((s.port q).queue cls).filter fun e => decide (e.window ≠ id)) := by
  cases now : s.window id with
  | none =>
    rw [closeWindow_free now]
    exact ⟨_, .of_ports rfl q, fun _ => .refl _, nofun⟩
  | some w =>
    refine ⟨((withdrawAll id w.cls s).port q).queue, ?_, fun cls => ?_, fun ok _ cls => ok.withdrawn now q cls⟩
    · obtain ⟨pending, notice, port⟩ := withdrawAll_port id w.cls s q
      have ports : (retireWindow id w (withdrawAll id w.cls s)).ports = (withdrawAll id w.cls s).ports :=
        (retireWindow_agree id w _).ports (by decide)
      have same : (retireWindow id w (withdrawAll id w.cls s)).port q = (withdrawAll id w.cls s).port q := congrArg (PerPort.get · q) ports
      rw [closeWindow_eq now, same, port]
      refine ⟨pending, notice, ?_⟩
      cases w.cls <;> simp [ConsumerPort.without, ConsumerPort.setQueue, ConsumerPort.queue]
    · rw [withdrawAll_queue]
      split
      next own => rw [own]; exact List.filter_sublist
      · exact .refl _

/-- The closure of windows, one after another. -/
def closeWindows (ids : List Nat) (s : State) : State := ids.foldl (fun s id => closeWindow id s) s

theorem closeWindows_port (ids : List Nat) : ∀ (s : State) (q : Port), ∃ queues, Requeued (s.port q) queues 0 ((closeWindows ids s).port q)
    ∧ ∀ cls, (queues cls).Sublist ((s.port q).queue cls) := by
  induction ids with
  | nil => exact fun s q => ⟨_, .of_ports rfl q, fun _ => .refl _⟩
  | cons id ids ih =>
    intro s q
    obtain ⟨_, first, fewer, _⟩ := closeWindow_requeued id s q
    obtain ⟨queues, rest, fewer'⟩ := ih (closeWindow id s) q
    exact ⟨queues, first.trans rest, fun cls => (fewer' cls).trans (first.queue cls ▸ fewer cls)⟩

theorem Requeued.stripWindow {c d : ConsumerPort} {queues : DeliveryClass → List Entry} {n : Nat} (h : Requeued c queues n d) :
    d.stripWindow = c.stripWindow := by
  obtain ⟨_, _, rfl⟩ := h
  rfl

theorem closeWindows_window (ids : List Nat) : ∀ (s : State) (other : Nat), (closeWindows ids s).window other
    = if other ∈ ids then (s.window other).bind (Window.retired (stripsInFlight other s)) else s.window other := by
  induction ids with
  | nil => exact fun _ _ => rfl
  | cons id ids ih =>
    intro s other
    have flies : stripsInFlight other (closeWindow id s) = stripsInFlight other s := stripsInFlight_congr fun q => by
      obtain ⟨_, requeued, _⟩ := closeWindow_requeued id s q
      rw [requeued.stripWindow]
    show (closeWindows ids (closeWindow id s)).window other = _
    rw [ih, flies, closeWindow_window]
    by_cases own : other = id
    · rw [if_pos own, if_pos (List.mem_cons.mpr (.inl own)), Window.retired_idem, ite_self]
    · rw [if_neg own]
      simp only [List.mem_cons, own, false_or]

/-- The queues hold the entries of the other windows alone (R118 step 1). -/
theorem closeWindows_queue (ids : List Nat) : ∀ (s : State), WindowsOk s → ∀ (q : Port) (cls : DeliveryClass),
    ((closeWindows ids s).port q).queue cls = ((s.port q).queue cls).filter fun e => decide (e.window ∉ ids) := by
  induction ids with
  | nil => exact fun s _ q cls => by simp [closeWindows]
  | cons id ids ih =>
    intro s ok q cls
    have first : ((closeWindow id s).port q).queue cls = ((s.port q).queue cls).filter fun e => decide (e.window ≠ id) := by
      obtain ⟨_, requeued, _, filtered⟩ := closeWindow_requeued id s q
      cases now : s.window id with
      | some w => rw [requeued.queue, filtered ok (by rw [now]; rfl)]
      | none =>
        rw [closeWindow_free now]
        refine (List.filter_eq_self.mpr fun e mem => decide_eq_true (p := e.window ≠ id) fun same => ?_).symm
        obtain ⟨_, w, window, _⟩ := ok.queued q cls e mem
        rw [same, now] at window
        cases window
    show ((closeWindows ids (closeWindow id s)).port q).queue cls = _
    rw [ih _ (ok.closeWindow id), first, List.filter_filter]
    refine List.filter_congr fun e _ => ?_
    rw [← Bool.decide_and]
    exact decide_eq_decide.mpr (by rw [List.mem_cons, not_or, and_comm])

end Sys2Proof.Machine
end

section
/-!
SUPPORT. The state at a link loss before the arbiters choose (R144 to R148, R174): the port itself, the other ports, and the windows.
-/

namespace Sys2Proof.Machine

theorem tableGet_of_mem {α : Type} {t : List (Nat × α)} (sorted : tableSorted t) {k : Nat} {x : α} (mem : (k, x) ∈ t) :
    tableGet t k = some x := by
  induction t with
  | nil => cases mem
  | cons e t ih =>
    obtain ⟨least, rest⟩ := List.pairwise_cons.mp sorted
    rcases List.mem_cons.mp mem with rfl | later
    · exact if_pos rfl
    · rw [tableGet, if_neg (Nat.ne_of_lt (least _ later)), ih rest later]

theorem mem_ownedWindows_iff {s : State} (sorted : tableSorted s.windows) (p : Port) (id : Nat) :
    id ∈ ownedWindows p s ↔ ∃ w, s.window id = some w ∧ w.owner = p ∧ w.closing = none := by
  refine ⟨fun mem => ?_, fun ⟨w, now, owner, opened⟩ => mem_ownedWindows now owner opened⟩
  obtain ⟨⟨_, w⟩, listed, rfl⟩ := List.mem_map.mp mem
  obtain ⟨mem, owned⟩ := List.mem_filter.mp listed
  exact ⟨w, tableGet_of_mem sorted mem, of_decide_eq_true owned⟩

theorem releaseAll_closes (p : Port) (s : State) :
    releaseAll p true s = closeWindows (ownedWindows p (entriesLost p s)) (entriesLost p s) := rfl

theorem Window.adoptedFrom_lose (w : Window) (n : Nat) (p st : Port) : (w.lose n).adoptedFrom p st = (w.adoptedFrom p st).lose n := by
  cases closing : w.closing with
  | some m =>
    have kept : w.lose n = w := if_neg (by rw [closing]; exact nofun)
    have stays : w.adoptedFrom p st = w := if_neg fun both => by rw [closing] at both; cases both.2
    rw [kept, stays, kept]
  | none =>
    rw [w.lose_open closing]
    by_cases owner : w.owner = p
    · rw [Window.adoptedFrom_owned closing owner, Window.adoptedFrom_owned (by exact closing) (by exact owner)]
      exact (if_pos closing).symm
    · have stays : w.adoptedFrom p st = w := if_neg fun both => owner both.1
      rw [stays, w.lose_open closing]
      exact if_neg fun both => owner both.1

theorem Window.lose_closed {w : Window} {m : Nat} (closes : w.closing = some m) (n : Nat) : w.lose n = w :=
  if_neg (by rw [closes]; exact nofun)

theorem Window.adoptedFrom_closed {w : Window} {m : Nat} (closes : w.closing = some m) (p st : Port) : w.adoptedFrom p st = w :=
  if_neg fun both => by rw [closes] at both; cases both.2

theorem ConsumerPort.stripWindow_eq (c : ConsumerPort) : c.stripWindow = c.strip.head?.map (·.window) := by
  unfold ConsumerPort.stripWindow ConsumerPort.strip
  cases c.outbound with
  | none => rfl
  | some frame => cases frame <;> rfl

/-- A port that holds its entries, each where it was, sends the strip that it sent. -/
theorem ConsumerPort.SameWork.stripWindow {c d : ConsumerPort} (work : c.SameWork d) : d.stripWindow = c.stripWindow := by
  have essential : d.essential = c.essential := work.queue .essential
  have sheddable : d.sheddable = c.sheddable := work.queue .sheddable
  have entries := work.entries
  rw [ConsumerPort.entries_eq, ConsumerPort.entries_eq, essential, sheddable] at entries
  rw [ConsumerPort.stripWindow_eq, ConsumerPort.stripWindow_eq, List.append_cancel_left entries]

/-! ### The state -/

/-- The state after the failure handling of a port that has lost its link. -/
def failedLink (p : Port) (s : State) : State := failPort p true (cutLink p s)

/-- The state in which nobody takes over and the entries of the port are lost, before its windows are closed. -/
def linkEmptied (p : Port) (s : State) : State := entriesLost p (cutLink p s)

/-- The state at the loss of a port's link, before the arbiters choose. -/
def linkLost (p : Port) (s : State) : State := dropClaim p ((failedLink p s).setPort p (downPort ((failedLink p s).port p)))

/-- The entries lost at a link loss: the strip's, and those that no standby takes (R140, R146, R147). -/
def State.lossOf (s : State) (p : Port) : List Entry := s.abortLost p ++ s.leftOver p .essential ++ s.leftOver p .sheddable

theorem execSteeringLinkLoss_lost {s : State} {p : Port} (up : (s.port p).isUp = true) (idle : s.shared.restart ≠ some p) :
    execSteeringLinkLoss p s = .next (settle (linkLost p s)) := by
  have state := (isUp_iff _).mp up
  unfold execSteeringLinkLoss
  rw [if_neg idle]
  split
  next down => exact absurd down state
  all_goals rfl

section
variable {s : State} {p st : Port}

theorem cutLink_excess (cls : DeliveryClass) : (cutLink p s).excess p st cls = s.excess p st cls := by
  rw [State.excess, cutLink_queue, cutLink_queue]
  rfl

theorem cutLink_joined (cls : DeliveryClass) : (cutLink p s).joined p st cls = s.joined p st cls := by
  rw [State.joined, State.fits, cutLink_queue, cutLink_queue]
  rfl

theorem failedLink_takesOver (takes : TakesOver s p st) : failedLink p s = adoptAll p st (cutLink p s) :=
  failPort_takesOver ((cutLink_takesOver p st s).mpr takes) true

theorem failedLink_none (alone : ∀ st, ¬TakesOver s p st) :
    failedLink p s = closeWindows (ownedWindows p (linkEmptied p s)) (linkEmptied p s) :=
  (failPort_none (fun st => mt (cutLink_takesOver p st s).mp (alone st)) true).trans (releaseAll_closes p _)

theorem lossOf_takesOver (takes : TakesOver s p st) :
    s.lossOf p = s.abortLost p ++ (s.excess p st .essential ++ s.excess p st .sheddable) := by
  rw [State.lossOf, leftOver_takesOver takes, leftOver_takesOver takes, List.append_assoc]

theorem lossOf_none (alone : ∀ st, ¬TakesOver s p st) : s.lossOf p = s.abortLost p ++ ((s.port p).essential ++ (s.port p).sheddable) := by
  rw [State.lossOf, leftOver_none alone, leftOver_none alone, List.append_assoc]
  rfl

/-! ### The ports -/

/-- The failed port holds no entry, and every entry that no standby takes is counted at it (R146, R147). -/
theorem failedLink_own : ∃ n, (s.abortLost p).length + n = (s.lossOf p).length
    ∧ Requeued ((cutLink p s).port p) (fun _ => []) n ((failedLink p s).port p) := by
  by_cases takes : ∃ st, TakesOver s p st
  · obtain ⟨st, takes⟩ := takes
    have moved := adoptAll_requeued takes.2.1 (cutLink p s) p
    rw [if_pos rfl, cutLink_excess, cutLink_excess, show (cutLink p s).adoptedQueues p st p = fun _ => [] from funext fun _ => if_pos rfl,
      ← failedLink_takesOver takes] at moved
    exact ⟨_, by rw [lossOf_takesOver takes, List.length_append, List.length_append], moved⟩
  · have alone : ∀ st, ¬TakesOver s p st := not_exists.mp takes
    have lost := entriesLost_requeued p (cutLink p s) p
    simp only [if_true] at lost
    have essential : ((cutLink p s).port p).essential = (s.port p).essential := cutLink_queue p s p .essential
    have sheddable : ((cutLink p s).port p).sheddable = (s.port p).sheddable := cutLink_queue p s p .sheddable
    rw [essential, sheddable] at lost
    obtain ⟨queues, closed, fewer⟩ := closeWindows_port (ownedWindows p (linkEmptied p s)) (linkEmptied p s) p
    have empty : queues = fun _ => [] := funext fun cls => by
      have sub := fewer cls
      rw [show ((linkEmptied p s).port p).queue cls = [] from lost.queue cls] at sub
      exact List.sublist_nil.mp sub
    rw [empty, ← failedLink_none alone] at closed
    exact ⟨_, by rw [lossOf_none alone, List.length_append, List.length_append, Nat.add_zero], lost.trans closed⟩

/-- The claim dropped leaves the windows and the store, and of the other ports all but notices. -/
theorem linkLost_agree : State.Agree [.ports, .shared] (failedLink p s) (linkLost p s) :=
  (agree_setPort _ p _ (by decide)).trans (dropClaim_agree p _)

theorem dropClaim_raises (p : Port) (s : State) : OnlyRaises s (dropClaim p s) := by
  unfold dropClaim
  split
  · exact (OnlyRaises.of_ports rfl).trans (raiseWhere_raises _ _ _)
  · exact .refl s

theorem dropClaim_self (p : Port) (s : State) : (dropClaim p s).port p = s.port p := by
  unfold dropClaim
  split
  · rw [raiseOthers, raiseWhere_port, if_neg (by simp)]
    rfl
  · rfl

/-- The port that has lost its link is DOWN and empty, its counters kept (R148). -/
theorem linkLost_self : (linkLost p s).port p = { emptyPort .down false with
    sent := (s.port p).sent, errors := (s.port p).errors
    dropped := (s.port p).dropped + BitVec.ofNat 32 (s.lossOf p).length } := by
  obtain ⟨_, cut⟩ := cutLink_self p s
  obtain ⟨n, count, _, _, failed⟩ := failedLink_own (s := s) (p := p)
  rw [linkLost, dropClaim_self, State.port_setPort_self, failed, cut, ← count, BitVec.ofNat_add, ← BitVec.add_assoc]
  rfl

theorem linkLost_other {q : Port} (ne : q ≠ p) : Requeued ((failedLink p s).port q) ((failedLink p s).port q).queue 0 ((linkLost p s).port q) := by
  have raised := Requeued.of_raises (dropClaim_raises p ((failedLink p s).setPort p (downPort ((failedLink p s).port p)))) q
  rwa [State.port_setPort_ne _ _ ne] at raised

/-- The end of the event leaves the port that has lost its link (R148). -/
theorem linkLost_settled_self : (settle (linkLost p s)).port p = (linkLost p s).port p := by
  have down : ((linkLost p s).port p).state = .down := by rw [linkLost_self]; rfl
  refine settle_port_chosen (fun u same => ?_) (by rw [linkLost_self]; rfl)
  rw [arbitrate_down (by rw [same]; exact down), same]

theorem linkLost_windows : (linkLost p s).windows = (failedLink p s).windows := linkLost_agree.windows (by decide)

theorem linkLost_added : NothingAdded s (linkLost p s) :=
  ((NothingAdded.failure s).failPort p true ((NothingAdded.failure s).cutLink p (.refl s))).trans
    (.of_same linkLost_windows (by rw [linkLost_agree.bsc (by decide)]; rfl))

theorem linkLost_atRest_self : (linkLost p s).AtRest p := atRest_of_not_live (by rw [linkLost_self]; exact nofun)

/-! ### The windows that stay as they are -/

/-- A CLOSING window counts one strip in flight less for the aborted strip, and no more (R119, R144). -/
theorem linkLost_closing (sorted : tableSorted (linkEmptied p s).windows) {id n : Nat} {w : Window} (now : s.window id = some w)
    (closes : w.closing = some n) : (linkLost p s).window id
      = if (s.port p).stripWindow = some id then if n ≤ 1 then none else some { w with closing := some (n - 1) } else some w := by
  have cut : (cutLink p s).window id
      = if (s.port p).stripWindow = some id then if n ≤ 1 then none else some { w with closing := some (n - 1) } else some w := by
    rw [cutLink_window, now, Option.bind_some, w.aborted_closing closes]
    exact if_congr decide_eq_true_iff rfl rfl
  have still : ∀ v, (cutLink p s).window id = some v → ∃ m, v.closing = some m := fun v some => by
    rw [cut] at some
    split at some
    · split at some
      · cases some
      · cases some; exact ⟨n - 1, rfl⟩
    · cases some; exact ⟨n, closes⟩
  have kept : ∀ f : Window → Window, (∀ v m, v.closing = some m → f v = v) → ((cutLink p s).window id).map f = (cutLink p s).window id :=
    fun f keeps => by
      cases has : (cutLink p s).window id with
      | none => rfl
      | some v =>
        obtain ⟨m, closing⟩ := still v has
        rw [Option.map_some, keeps v m closing]
  rw [State.window, linkLost_windows, ← cut]
  show (failedLink p s).window id = _
  by_cases takes : ∃ st, TakesOver s p st
  · obtain ⟨st, takes⟩ := takes
    rw [failedLink_takesOver takes, adoptAll_window takes.2.1]
    exact kept _ fun v m closing => by rw [Window.adoptedFrom_closed closing, Window.lose_closed closing]
  · rw [failedLink_none (not_exists.mp takes), closeWindows_window]
    have lost : (linkEmptied p s).window id = (cutLink p s).window id := by
      rw [linkEmptied, entriesLost_window]
      exact kept _ fun v m closing => Window.lose_closed closing _
    rw [if_neg fun mem => ?_, lost]
    obtain ⟨v, has, _, opened⟩ := (mem_ownedWindows_iff sorted p id).mp mem
    rw [lost] at has
    obtain ⟨m, closing⟩ := still v has
    cases opened.symm.trans closing

/-! ### A standby takes over (R145, R146) -/

/-- An OPEN window after the standby has taken over. -/
theorem linkLost_takesOver_window (takes : TakesOver s p st) {id : Nat} {w : Window} (now : s.window id = some w) (opened : w.closing = none) :
    (linkLost p s).window id = some ((w.adoptedFrom p st).lose (lostAt id (s.lossOf p))) := by
  rw [State.window, linkLost_windows]
  show (failedLink p s).window id = _
  rw [failedLink_takesOver takes, adoptAll_window takes.2.1, cutLink_window, now, Option.bind_some, w.aborted_open opened, Option.map_some,
    Window.adoptedFrom_lose, Window.lose_lose, cutLink_excess, cutLink_excess, ← lostAt_append, ← lossOf_takesOver takes]

/-- The other ports after the standby has taken over. -/
theorem linkLost_takesOver_port (takes : TakesOver s p st) {q : Port} (ne : q ≠ p) :
    Requeued (s.port q) (if q = st then s.joined p st else (s.port q).queue) 0 ((linkLost p s).port q) := by
  have adopted := adoptAll_requeued takes.2.1 (cutLink p s) q
  rw [if_neg ne, ← failedLink_takesOver takes] at adopted
  have queues : (cutLink p s).adoptedQueues p st q = if q = st then s.joined p st else (s.port q).queue := funext fun cls => by
    rw [State.adoptedQueues, if_neg ne, cutLink_joined, cutLink_queue]
    split <;> rfl
  rw [queues] at adopted
  have all := ((cutLink_other ne s).trans adopted).trans (linkLost_other ne)
  have same : ((failedLink p s).port q).queue = if q = st then s.joined p st else (s.port q).queue := funext adopted.queue
  rwa [same] at all

theorem linkLost_takesOver_atRest (h : Settled s) (takes : TakesOver s p st) {q : Port} (ne : q ≠ st) : (linkLost p s).AtRest q := by
  by_cases own : q = p
  · rw [own]; exact linkLost_atRest_self
  · have kept := linkLost_takesOver_port takes own
    rw [if_neg ne] at kept
    exact linkLost_added.atRest_requeued (h.atRest q) kept

/-! ### Nobody takes over (R120, R147) -/

theorem linkEmptied_ok (ok : WindowsOk s) : WindowsOk (linkEmptied p s) := ((ok.cutLink p).releaseAll p false).1

theorem linkEmptied_open (alone : ∀ st, ¬TakesOver s p st) {id : Nat} {w : Window} (now : s.window id = some w) (opened : w.closing = none) :
    (linkEmptied p s).window id = some (w.lose (lostAt id (s.lossOf p))) := by
  have essential : ((cutLink p s).port p).essential = (s.port p).essential := cutLink_queue p s p .essential
  have sheddable : ((cutLink p s).port p).sheddable = (s.port p).sheddable := cutLink_queue p s p .sheddable
  rw [linkEmptied, entriesLost_window, cutLink_window, now, Option.bind_some, w.aborted_open opened, Option.map_some, Window.lose_lose,
    essential, sheddable, ← lostAt_append, ← lossOf_none alone]

/-- The windows of the port are those closed. -/
theorem linkEmptied_owned (alone : ∀ st, ¬TakesOver s p st) (ok : WindowsOk s) {id : Nat} {w : Window} (now : s.window id = some w)
    (opened : w.closing = none) : id ∈ ownedWindows p (linkEmptied p s) ↔ w.owner = p := by
  have emptied := linkEmptied_open alone now opened
  have owner : (w.lose (lostAt id (s.lossOf p))).owner = w.owner := congrArg Prod.fst (w.lose_standing _)
  rw [mem_ownedWindows_iff (linkEmptied_ok ok).sorted]
  refine ⟨fun ⟨v, has, own, _⟩ => ?_, fun own => ⟨_, emptied, owner.trans own, (w.lose_closing _).trans opened⟩⟩
  cases emptied.symm.trans has
  exact owner.symm.trans own

theorem linkEmptied_port {q : Port} (ne : q ≠ p) : Requeued (s.port q) (s.port q).queue 0 ((linkEmptied p s).port q) := by
  have lost := entriesLost_requeued p (cutLink p s) q
  simp only [if_neg ne, cutLink_queue] at lost
  exact (cutLink_other ne s).trans lost

/-- The other ports keep their entries, those of the closed windows apart. -/
theorem linkLost_none_port (alone : ∀ st, ¬TakesOver s p st) {q : Port} (ne : q ≠ p) :
    ∃ queues, Requeued (s.port q) queues 0 ((linkLost p s).port q)
    ∧ ∀ cls, (queues cls).Sublist ((s.port q).queue cls) := by
  obtain ⟨queues, closed, fewer⟩ := closeWindows_port (ownedWindows p (linkEmptied p s)) (linkEmptied p s) q
  rw [← failedLink_none alone] at closed
  refine ⟨_, ((linkEmptied_port ne).trans closed).trans (linkLost_other ne), fun cls => ?_⟩
  rw [closed.queue, ← (linkEmptied_port ne).queue]
  exact fewer cls

theorem linkLost_none_atRest (h : Settled s) (holders : HoldersOk s) (ok : WindowsOk s) (alone : ∀ st, ¬TakesOver s p st) (q : Port) :
    (linkLost p s).AtRest q := by
  by_cases own : q = p
  · rw [own]; exact linkLost_atRest_self
  · obtain ⟨queues, kept, fewer⟩ := linkLost_none_port alone own
    intro idle live credit e next
    obtain ⟨cls, mem⟩ := nextEntry_queued next
    obtain ⟨_, _, port⟩ := kept
    have empty := h.queue_nil holders ok (p := q) (by rw [port] at idle; exact idle) (by rw [port] at live; exact live)
      (by rw [port] at credit; exact credit) cls
    have queue : ((linkLost p s).port q).queue cls = queues cls := by rw [port]; cases cls <;> rfl
    rw [queue] at mem
    have sub := fewer cls
    rw [empty, List.sublist_nil] at sub
    rw [sub] at mem
    cases mem

/-- The queues of the other ports hold the entries of the windows that the port does not own. -/
theorem linkLost_none_queue (alone : ∀ st, ¬TakesOver s p st) (ok : WindowsOk s) {q : Port} (ne : q ≠ p) (cls : DeliveryClass) :
    ((linkLost p s).port q).queue cls
      = ((s.port q).queue cls).filter fun e => decide ((s.window e.window).map (·.owner) ≠ some p) := by
  rw [(linkLost_other ne).queue, failedLink_none alone]
  rw [closeWindows_queue _ _ (linkEmptied_ok ok), (linkEmptied_port ne).queue]
  refine List.filter_congr fun e mem => decide_eq_decide.mpr (not_congr ?_)
  obtain ⟨_, w, now, opened, _⟩ := ok.queued q cls e mem
  rw [linkEmptied_owned alone ok now opened, now, Option.map_some, Option.some_inj]

/-- The strips in flight at the end of the event are those of the ports other than the one that has lost its link. -/
theorem linkLost_none_strips (rest : ∀ q, (linkLost p s).AtRest q) (alone : ∀ st, ¬TakesOver s p st) (id : Nat) :
    stripsInFlight id (settle (linkLost p s)) = stripsInFlight id (linkEmptied p s) := by
  refine stripsInFlight_congr fun q => ?_
  rw [((settle_noStrip rest).work q).stripWindow]
  by_cases own : q = p
  · subst own
    obtain ⟨_, cut⟩ := cutLink_self q s
    have lost := (entriesLost_requeued q (cutLink q s) q).stripWindow
    rw [show ((linkEmptied q s).port q).stripWindow = _ from lost, cut, linkLost_self]
    rfl
  · obtain ⟨_, kept, _⟩ := linkLost_none_port alone own
    rw [kept.stripWindow, (linkEmptied_port own).stripWindow]

/-- An OPEN window that the port does not own stays OPEN, and one that it owns is closed (R118, R120). -/
theorem linkLost_none_window (alone : ∀ st, ¬TakesOver s p st) (ok : WindowsOk s) {id : Nat} {w : Window} (now : s.window id = some w)
    (opened : w.closing = none) : (linkLost p s).window id = if w.owner = p
      then (w.lose (lostAt id (s.lossOf p))).retired (stripsInFlight id (linkEmptied p s)) else some (w.lose (lostAt id (s.lossOf p))) := by
  rw [State.window, linkLost_windows]
  show (failedLink p s).window id = _
  rw [failedLink_none alone]
  rw [closeWindows_window, linkEmptied_open alone now opened]
  rw [Option.bind_some]
  exact if_congr (linkEmptied_owned alone ok now opened) rfl rfl

end

end Sys2Proof.Machine
end

section
/-!
PROOF. A steering link up and a link loss (R132, R144 to R148, R174).
-/

namespace Sys2Proof.Machine

section
variable {s : State} {p st : Port}

/-! ### The claim and the notices (R145, R174) -/

/-- The claim given up leaves the other ports' states, and their pending sets grow. -/
theorem linkLost_grows (s : State) {p q : Port} (ne : q ≠ p) : ((linkLost p s).port q).state = ((failedLink p s).port q).state
    ∧ ∀ kind, NoticeSet.has ((failedLink p s).port q).pendingSet kind = true →
      NoticeSet.has ((linkLost p s).port q).pendingSet kind = true := by
  have grows := (dropClaim_raises p ((failedLink p s).setPort p (downPort ((failedLink p s).port p)))).grows q
  rwa [State.port_setPort_ne _ _ ne] at grows

theorem failedLink_grows (p : Port) (s : State) : PendingGrows s (failedLink p s) :=
  (PendingGrows.failure s).failPort p true ((PendingGrows.failure s).cutLink p (.refl s))

theorem failedLink_agree (p : Port) (s : State) : State.Agree deliveryParts s (failedLink p s) :=
  (cutLink_agree p s).trans (failPort_agree p true _)

theorem linkLost_shared : (linkLost p s).shared = { s.shared with holder := if s.shared.holder = some p then none else s.shared.holder } := by
  have shared : (failedLink p s).shared = s.shared := (failedLink_agree p s).shared (by decide)
  have before : ((failedLink p s).setPort p (downPort ((failedLink p s).port p))).shared = s.shared := shared
  rw [linkLost, dropClaim, before]
  split
  · rfl
  · exact before

theorem linkLost_claim {q : Port} (holds : s.shared.holder = some p) (ne : q ≠ p) (live : (s.port q).state = .live) :
    NoticeSet.has ((linkLost p s).port q).pendingSet .claim = true := by
  have shared : ((failedLink p s).setPort p (downPort ((failedLink p s).port p))).shared = s.shared :=
    (failedLink_agree p s).shared (by decide)
  have state : ((failedLink p s).port q).state = .live := ((failedLink_grows p s) q).1.trans live
  rw [linkLost, dropClaim, shared, if_pos holds, raiseOthers, raiseWhere_pendingSet]
  have port : (((failedLink p s).setPort p (downPort ((failedLink p s).port p))).withShared { s.shared with holder := none }).port q
      = (failedLink p s).port q := State.port_setPort_ne _ _ ne
  rw [port, if_pos (by simp [ne, ConsumerPort.isLive, state]), NoticeSet.has_add]
  simp

theorem linkLost_adopt (takes : TakesOver s p st) : NoticeSet.has ((linkLost p s).port st).pendingSet .adopt = true := by
  refine (linkLost_grows s takes.2.1).2 .adopt ?_
  rw [failedLink_takesOver takes]
  exact adoptAll_adopt ((cutLink_takesOver p st s).mpr takes)

/-- The OPEN windows of the port are closed where nobody takes over (R120). -/
theorem linkLost_closes (alone : ∀ st, ¬TakesOver s p st) {id : Nat} {w v : Window} (now : s.window id = some w) (opened : w.closing = none)
    (owner : w.owner = p) (final : (settle (linkLost p s)).window id = some v) : v.closing.isSome = true := by
  have standing := settle_standing (linkLost p s) id
  rw [final, Option.map_some, eq_comm, Option.map_eq_some_iff] at standing
  obtain ⟨x, lost, same⟩ := standing
  have closing : x.closing = v.closing := congrArg (·.2.2.2.2) same
  have emptied := linkEmptied_open alone now opened
  have mem : id ∈ ownedWindows p (linkEmptied p s) :=
    mem_ownedWindows emptied ((congrArg Prod.fst (w.lose_standing _)).trans owner) ((w.lose_closing _).trans opened)
  rw [State.window, linkLost_windows] at lost
  have closed : (failedLink p s).window id = some x := lost
  rw [failedLink_none alone, closeWindows_window, if_pos mem, emptied, Option.bind_some, Window.retired] at closed
  split at closed
  · cases closed
  · cases closed
    rw [← closing]
    rfl

/-! ### The end of the event -/

/-- Pressure after the releases, and PRESSURE at the other ports (R108). -/
theorem linkLost_pressure (ok : PressureOk s) : PressureReleased (fun q => q ≠ p) s (settle (linkLost p s)) := by
  have freed : SlotsFreed s (failedLink p s) := (SlotsFreed.failure s).failPort p true ((SlotsFreed.failure s).cutLink p (.refl s))
  obtain ⟨pressure, raised⟩ := freed.pressure ok
  have bsc : (settle (linkLost p s)).bsc = (failedLink p s).bsc := (settle_bsc _).trans (linkLost_agree.bsc (by decide))
  refine ⟨by rw [bsc]; exact pressure, fun q ne => ?_⟩
  have same : NoticeSet.has ((linkLost p s).port q).pendingSet .pressure = NoticeSet.has ((failedLink p s).port q).pendingSet .pressure := by
    rw [← State.port_setPort_ne (failedLink p s) (downPort ((failedLink p s).port p)) ne, linkLost, dropClaim]
    split
    · exact raiseWhere_has (by decide) _ q
    · rfl
  rw [settle_pendingSet, bsc, same, raised q trivial, ConsumerPort.isLive, ConsumerPort.isLive, settle_state, (linkLost_grows s ne).1]

theorem linkLost_released (slots : SlotsOk s) (holders : HoldersOk s) (ends : execSteeringLinkLoss p s = .next (settle (linkLost p s))) :
    EntriesReleased s (settle (linkLost p s)) := by
  have failed : SlotsReleased s (failedLink p s) :=
    (SlotsReleased.failure s).failPort p true ((SlotsReleased.failure s).cutLink p (.refl s))
  have slotsAfter : SlotsOk (settle (linkLost p s)) := slotsOk_kept.exec (c := .steeringLinkLoss p) slots ends
  exact (failed.congr ((settle_bsc _).trans (linkLost_agree.bsc (by decide)))).entriesReleased slots slotsAfter
    (holders.execSteeringLinkLoss ends)

/-- A CLOSING window at the end of the event: no entry names it, so no strip of it is begun. -/
theorem settle_closing_kept (rest : ∀ q, q ≠ st → (linkLost p s).AtRest q) (ok : WindowsOk s)
    (queued : ∀ cls, ∀ e ∈ ((linkLost p s).port st).queue cls, ∃ q cls', e ∈ (s.port q).queue cls') {id n : Nat} {w : Window}
    (now : s.window id = some w) (closes : w.closing = some n) : (settle (linkLost p s)).window id
      = if (s.port p).stripWindow = some id then if n = 1 then none else some { w with closing := some (n - 1) } else some w := by
  rw [settle_window_unnamed rest fun cls e mem same => ?_, linkLost_closing (linkEmptied_ok ok).sorted now closes]
  · obtain ⟨_, some⟩ := ok.closing id w n now closes
    exact if_congr Iff.rfl (if_congr ⟨fun le => by omega, fun one => by omega⟩ rfl rfl) rfl
  · obtain ⟨q, cls', before⟩ := queued cls e mem
    obtain ⟨_, v, opened, open_, _⟩ := ok.queued q cls' e before
    rw [same] at opened
    cases now.symm.trans opened
    cases closes.symm.trans open_

/-- The end of a link loss where a standby takes over (R145, R146). -/
theorem linkLost_takesOver_settled (h : Settled s) (ok : WindowsOk s) (takes : TakesOver s p st) : let t := settle (linkLost p s)
    LossCounted (s.lossOf p) s t
    ∧ (∀ id w n, s.window id = some w → w.closing = some n → t.window id
        = if (s.port p).stripWindow = some id then if n = 1 then none else some { w with closing := some (n - 1) } else some w)
    ∧ EntriesMoved p st s t
    ∧ (∀ q, q ≠ p → q ≠ st → ∀ cls, (t.port q).queue cls = (s.port q).queue cls)
    ∧ ∀ id w, s.window id = some w → w.closing = none → ∃ v, t.window id = some v ∧ v.closing = none := by
  intro t
  have rest : ∀ q, q ≠ st → (linkLost p s).AtRest q := fun q ne => linkLost_takesOver_atRest h takes ne
  have standby := linkLost_takesOver_port takes takes.2.1
  rw [if_pos rfl] at standby
  obtain ⟨_, _, port⟩ := id standby
  have link : ((linkLost p s).port st).outbound = none → (s.port st).outbound = none := by rw [port]; exact id
  refine ⟨lossCounted_settle (lostAt_counted (fun w => w.adoptedFrom_counts p st) fun id w x now opened then_ _ => ?_) link rest,
    fun id w n => settle_closing_kept rest ok fun cls e mem => ?_, entriesMoved_settle standby.queue link (by rw [port]) rest,
    fun q ne other cls => ?_, fun id w now opened => ?_⟩
  · rw [linkLost_takesOver_window takes now opened] at then_
    exact (Option.some.inj then_).symm
  · rw [standby.queue, State.joined] at mem
    rcases List.mem_append.mp mem with own | moved
    · exact ⟨st, cls, own⟩
    · exact ⟨p, cls, List.mem_of_mem_take moved⟩
  · have work : ((linkLost p s).port q).SameWork (t.port q) := by
      rcases settle_strips rest with none | ⟨_, begun⟩
      · exact none.work q
      · exact begun.work q other
    have kept := linkLost_takesOver_port takes ne
    rw [if_neg other] at kept
    rw [work.queue, kept.queue]
  · obtain ⟨v, final, standing⟩ := settle_window_stands (linkLost_takesOver_window takes now opened)
    obtain ⟨owner, adopted, same⟩ := w.adoptedFrom_counts p st
    have closing : v.closing = (w.adoptedFrom p st).closing := congrArg (·.2.2.2.2) (standing.trans (Window.lose_standing _ _))
    rw [same] at closing
    exact ⟨v, final, closing.trans opened⟩

/-- The end of a link loss where nobody takes over (R118, R120, R147). -/
theorem linkLost_none_settled (h : Settled s) (holders : HoldersOk s) (ok : WindowsOk s) (alone : ∀ st, ¬TakesOver s p st) :
    let t := settle (linkLost p s)
    LossCounted (s.lossOf p) s t
    ∧ (∀ id w n, s.window id = some w → w.closing = some n → t.window id
        = if (s.port p).stripWindow = some id then if n = 1 then none else some { w with closing := some (n - 1) } else some w)
    ∧ (∀ q, q ≠ p → ∀ cls, (t.port q).queue cls
        = ((s.port q).queue cls).filter fun e => decide ((s.window e.window).map (·.owner) ≠ some p))
    ∧ ∀ id w, s.window id = some w → w.closing = none → t.window id = if w.owner = p
        then (w.lose (lostAt id (s.lossOf p))).retired (stripsInFlight id t) else some (w.lose (lostAt id (s.lossOf p))) := by
  intro t
  have rest := linkLost_none_atRest h holders ok alone
  have quiet := settle_noStrip rest
  refine ⟨lossCounted_noStrip (lostAt_counted (f := id) (fun w => ⟨w.owner, w.adopted, rfl⟩) fun id w x now opened then_ open_ => ?_) quiet,
    fun id w n => settle_closing_kept (st := p) (fun q _ => rest q) ok fun cls e mem => ?_, fun q ne cls => ?_, fun id w now opened => ?_⟩
  · rw [linkLost_none_window alone ok now opened] at then_
    split at then_
    · rw [Window.retired] at then_
      split at then_
      · cases then_
      · cases then_; cases open_
    · exact (Option.some.inj then_).symm
  · rw [linkLost_self] at mem
    cases cls <;> cases mem
  · rw [(quiet.work q).queue, linkLost_none_queue alone ok ne]
  · rw [linkLost_none_strips rest alone, ← linkLost_none_window alone ok now opened, State.window, quiet.windows]
    rfl

end

/-- A steering link up (R132). -/
theorem steeringLinkUp_next (s : State) (p : Port) : exec (.steeringLinkUp p) s = .next (
    if (s.port p).state = .down then s.setPort p { emptyPort .live true with
      sent := (s.port p).sent, dropped := (s.port p).dropped, errors := (s.port p).errors }
    else s) := by
  show execSteeringLinkUp p s = _
  unfold execSteeringLinkUp
  dsimp only
  split
  next down => rw [if_pos down]; rfl
  next live => rw [if_neg (by rw [live]; exact nofun)]
  next stalled => rw [if_neg (by rw [stalled]; exact nofun)]

/-- Settles O51: the port by `linkLost_self`, the windows and entries by who takes over (`linkLost_takesOver_settled`,
`linkLost_none_settled`). -/
theorem steeringLinks : Obligations.SteeringLinks := by
  unfold Obligations.SteeringLinks
  refine ⟨steeringLinkUp_next, fun s p up idle => ?_, fun s p h slots holders ok _ up idle => ?_⟩
  · have self : (settle (linkLost p s)).port p = _ := linkLost_settled_self.trans linkLost_self
    refine ⟨_, execSteeringLinkLoss_lost up idle, by rw [self], (settle_shared _).trans linkLost_shared, fun holds q ne live => ?_,
      fun st standby ne live => ⟨?_, fun id w now opened owner => ?_⟩, fun none id w now opened owner v final => ?_, ?_⟩
    · rw [settle_pendingSet]; exact linkLost_claim holds ne live
    · rw [settle_pendingSet]; exact linkLost_adopt ⟨standby, ne, live⟩
    · exact adopted_settles (linkLost_takesOver_window ⟨standby, ne, live⟩ now opened) opened owner
    · exact linkLost_closes ((not_takesOver_iff s p).mp none) now opened owner final
    · exact (((failedLink_agree p s).mono (by decide)).trans (linkLost_agree.mono (by decide))).trans ((settle_agree _).mono (by decide))
  · intro c lost
    have ends := execSteeringLinkLoss_lost up idle
    have dropped : ((settle (linkLost p s)).port p).dropped = c.dropped + BitVec.ofNat 32 lost.length := by
      rw [linkLost_settled_self, linkLost_self]
      rfl
    by_cases takes : ∃ st, TakesOver s p st
    · obtain ⟨st, takes⟩ := takes
      obtain ⟨counted, closing, moved, others, windows⟩ := linkLost_takesOver_settled h ok takes
      refine ⟨_, ends, dropped, counted, linkLost_released slots holders ends, linkLost_pressure, closing, fun st' takes' => ?_,
        fun none => absurd takes (none st)⟩
      cases takes.1.symm.trans takes'.1
      exact ⟨moved, others, windows⟩
    · have alone : ∀ st, ¬TakesOver s p st := not_exists.mp takes
      obtain ⟨counted, closing, queues, windows⟩ := linkLost_none_settled h holders ok alone
      refine ⟨_, ends, dropped, counted, linkLost_released slots holders ends, linkLost_pressure, closing,
        fun st takes' => absurd takes' (alone st), fun _ => ⟨queues, fun id w now opened => ⟨fun other => ?_, fun own none => ?_,
          fun own flies => ?_⟩⟩⟩
      · rw [windows id w now opened, if_neg other]
        exact ⟨_, rfl, (w.lose_closing _).trans opened⟩
      · rw [windows id w now opened, if_pos own, Window.retired, if_pos none]
      · intro n
        rw [windows id w now opened, if_pos own, Window.retired, if_neg (Nat.ne_of_gt flies), w.lose_open opened]
        rfl

end Sys2Proof.Machine
end
